-- ==== Sys2Proof/Word.lean ====
section
/-! DEFINITION. The fixed-width words of the block (R13: `uN` is a natural below 2^N). -/

namespace Sys2Proof

/-- A data byte of a `WRITE`, a control byte, a status byte, a byte of sample memory. -/
abbrev Byte := BitVec 8

/-- A Cache or Pending word, and a sample address (R32, R30). -/
abbrev Word16 := BitVec 16

/-- The transport encoding of one command (R81). -/
abbrev CommandWord := BitVec 64

end Sys2Proof
end

