-- ==== Sys2Proof/Config.lean ====
section
/-! DEFINITION. The implementation parameters `Cfg` (R7), the fixed constants (R7, R9), the test configuration
T0 (R8, R10, R11) and the two functions the block does not determine (R61, R158). -/

namespace Sys2Proof

/-- `PrngState` (R7): the naturals; another type's values stand here under their numbers (assumption log 3). -/
abbrev PrngState := Nat

/-- `PRNG_ADVANCE` (R7) as plain data: T0's successor, or one of the free functions of `Config.prngAdvance`, named by a
number (assumption log 3). -/
inductive PrngAdvance where
  | successor
  | free (n : Nat)
deriving DecidableEq, Repr

/-- The configuration record `Cfg` of R7: every OPEN member.  It stands in `State` as a field that no step writes (R12;
assumption log 1), so a statement over all states is a statement over all of them. -/
structure Cfg where
  /-- `SCALE`, the cycles to sample-index ratio in units of 2^-21. -/
  scale : Nat
  /-- `STEP_P2[0]`, twice the four-step step length. -/
  stepP2Four : Nat
  /-- `STEP_P2[1]`, twice the five-step step length. -/
  stepP2Five : Nat
  /-- `LENGTH_TABLE[32]`. -/
  lengthTable : Vector (BitVec 8) 32
  /-- `DMC_RATE[16]`. -/
  dmcRate : Vector Nat 16
  /-- `DMC_BASE`. -/
  dmcBase : Nat
  /-- `DMC_DIRECT_MASK`. -/
  dmcDirectMask : Byte
  /-- `NSLOTS`. -/
  nslots : Nat
  /-- `LEAD_SLOTS`. -/
  leadSlots : Nat
  /-- `NOISE_FIELDS`. -/
  noiseFields : Word16
  /-- `PRNG_INIT`. -/
  prngInit : PrngState
  /-- `PRNG_ADVANCE`. -/
  prngAdvance : PrngAdvance
deriving DecidableEq, Repr

namespace Config

/-- `SHIFT` (R7). -/
def shift : Nat := 21

/-- `SAMPLE_RATE` (R7): informative, no rule uses it. -/
def sampleRate : Nat := 44100

/-- `TRI_DELAY` (R7, R143). -/
def triDelay : Nat := 100

/-- `SWEEP_MULT[negate * 8 + shift]` (R9). -/
def sweepMult (negate : Bool) (shift : BitVec 3) : Int :=
  if negate then -((256 >>> shift.toNat : Nat) : Int) else ((256 >>> shift.toNat : Nat) : Int)

/-- `LENGTH_TABLE` of T0 (R8). -/
def lengthTableT0 : Vector (BitVec 8) 32 :=
  #v[10, 254, 20, 2, 40, 4, 80, 6, 160, 8, 60, 10, 14, 12, 26, 14,
     12, 16, 24, 18, 48, 20, 96, 22, 192, 24, 72, 26, 16, 28, 32, 30]

/-- `DMC_RATE` of T0 (R10). -/
def dmcRateT0 : Vector Nat 16 :=
  #v[428, 380, 340, 320, 286, 254, 226, 214, 190, 160, 142, 128, 106, 84, 72, 54]

/-- The test configuration T0 (R7's last column, R11). -/
def t0 : Cfg where
  scale := 51674
  stepP2Four := 14915
  stepP2Five := 18641
  lengthTable := lengthTableT0
  dmcRate := dmcRateT0
  dmcBase := 0xC000
  dmcDirectMask := 0x7F
  nslots := 2048
  leadSlots := 1024
  noiseFields := 0x01FF
  prngInit := 0
  prngAdvance := .successor

/-- The free choices of `PRNG_ADVANCE` (R158): of no number's function is anything known (assumption log 3). -/
opaque prngAdvance : Nat → PrngState → PrngState

/-- The sample-memory oracle (R61, U10): the byte the memory outside the block answers, given the earlier reads
(address and byte, oldest first) and the address.  Nothing is known of it (assumption log 2). -/
opaque sampleByte : List (Word16 × Byte) → Word16 → Byte

end Config

/-- The constraints R7 puts on a configuration. -/
structure Cfg.Ok (c : Cfg) : Prop where
  scale : 1 ≤ c.scale
  stepFour : 2 ≤ c.stepP2Four
  stepFive : 2 ≤ c.stepP2Five
  length : ∀ i : Fin 32, c.lengthTable[i] ≠ 0
  lengthOne : c.lengthTable[1] = 0xFE
  rate : ∀ i : Fin 16, 1 ≤ c.dmcRate[i]
  baseLow : 0x8000 ≤ c.dmcBase
  baseHigh : c.dmcBase + 0x3FC0 ≤ 0xFFFF
  mask : c.dmcDirectMask = 0x7F ∨ c.dmcDirectMask = 0xFF
  nslots : 2 ≤ c.nslots
  lead : c.leadSlots < c.nslots

end Sys2Proof
end

