-- ==== Sys2Proof/Syntax.lean ====
section
/-! DEFINITION. The commands (R80): one constructor per row of spec/opcode_table.json.  `ts` is the command's
timestamp and `v` its data byte; both are numbers, so that an operand outside the interface's types (R101, R261)
can be written down and refused. -/

namespace Sys2Proof

/-- One command.  A `WRITE` is a constructor per port (R82). -/
inductive Instr where
  /-- `P0_CTRL`, port 0x00: R120, fields R83. -/
  | p0Ctrl (ts v : Nat)
  /-- `P0_SWEEP`, port 0x01: R124, fields R84. -/
  | p0Sweep (ts v : Nat)
  /-- `P0_LO`, port 0x02: R125, fields R85. -/
  | p0Lo (ts v : Nat)
  /-- `P0_HI`, port 0x03: R128, fields R86. -/
  | p0Hi (ts v : Nat)
  /-- `P1_CTRL`, port 0x04: R120, fields R83. -/
  | p1Ctrl (ts v : Nat)
  /-- `P1_SWEEP`, port 0x05: R124, fields R84. -/
  | p1Sweep (ts v : Nat)
  /-- `P1_LO`, port 0x06: R125, fields R85. -/
  | p1Lo (ts v : Nat)
  /-- `P1_HI`, port 0x07: R128, fields R86. -/
  | p1Hi (ts v : Nat)
  /-- `TRI_CTRL`, port 0x08: R140, fields R87. -/
  | triCtrl (ts v : Nat)
  /-- `NOP09`, port 0x09: R108, fields R97. -/
  | nop09 (ts v : Nat)
  /-- `TRI_LO`, port 0x0A: R141, fields R88. -/
  | triLo (ts v : Nat)
  /-- `TRI_HI`, port 0x0B: R142, fields R89. -/
  | triHi (ts v : Nat)
  /-- `NOI_CTRL`, port 0x0C: R155, fields R90. -/
  | noiCtrl (ts v : Nat)
  /-- `NOP0D`, port 0x0D: R108, fields R97. -/
  | nop0D (ts v : Nat)
  /-- `NOI_MODE`, port 0x0E: R156, fields R91. -/
  | noiMode (ts v : Nat)
  /-- `NOI_LEN`, port 0x0F: R157, fields R92. -/
  | noiLen (ts v : Nat)
  /-- `DMC_CTRL`, port 0x10: R201, fields R93. -/
  | dmcCtrl (ts v : Nat)
  /-- `DMC_LEVEL`, port 0x11: R202, fields R94. -/
  | dmcLevel (ts v : Nat)
  /-- `DMC_ADDR`, port 0x12: R203, fields R94. -/
  | dmcAddr (ts v : Nat)
  /-- `DMC_LEN`, port 0x13: R204, fields R94. -/
  | dmcLen (ts v : Nat)
  /-- `NOP14`, port 0x14: R108, fields R97. -/
  | nop14 (ts v : Nat)
  /-- `CH_ENABLE`, port 0x15: R168, fields R95. -/
  | chEnable (ts v : Nat)
  /-- `NOP16`, port 0x16: R108, fields R97. -/
  | nop16 (ts v : Nat)
  /-- `SEQ_CTRL`, port 0x17: R185, fields R96. -/
  | seqCtrl (ts v : Nat)
  /-- `RD_STATUS`: R105. -/
  | rdStatus (ts : Nat)
  /-- `FORCE`: R106. -/
  | force (ts : Nat)
  /-- `EOF`: R107. -/
  | eof (ts : Nat)
deriving DecidableEq, Repr

/-- The timestamp a command carries (R80). -/
def Instr.ts : Instr → Nat
  | .p0Ctrl ts _ => ts
  | .p0Sweep ts _ => ts
  | .p0Lo ts _ => ts
  | .p0Hi ts _ => ts
  | .p1Ctrl ts _ => ts
  | .p1Sweep ts _ => ts
  | .p1Lo ts _ => ts
  | .p1Hi ts _ => ts
  | .triCtrl ts _ => ts
  | .nop09 ts _ => ts
  | .triLo ts _ => ts
  | .triHi ts _ => ts
  | .noiCtrl ts _ => ts
  | .nop0D ts _ => ts
  | .noiMode ts _ => ts
  | .noiLen ts _ => ts
  | .dmcCtrl ts _ => ts
  | .dmcLevel ts _ => ts
  | .dmcAddr ts _ => ts
  | .dmcLen ts _ => ts
  | .nop14 ts _ => ts
  | .chEnable ts _ => ts
  | .nop16 ts _ => ts
  | .seqCtrl ts _ => ts
  | .rdStatus ts => ts
  | .force ts => ts
  | .eof ts => ts

/-- The data byte of a `WRITE`; the other three kinds carry none (R80). -/
def Instr.value : Instr → Option Nat
  | .p0Ctrl _ v => some v
  | .p0Sweep _ v => some v
  | .p0Lo _ v => some v
  | .p0Hi _ v => some v
  | .p1Ctrl _ v => some v
  | .p1Sweep _ v => some v
  | .p1Lo _ v => some v
  | .p1Hi _ v => some v
  | .triCtrl _ v => some v
  | .nop09 _ v => some v
  | .triLo _ v => some v
  | .triHi _ v => some v
  | .noiCtrl _ v => some v
  | .nop0D _ v => some v
  | .noiMode _ v => some v
  | .noiLen _ v => some v
  | .dmcCtrl _ v => some v
  | .dmcLevel _ v => some v
  | .dmcAddr _ v => some v
  | .dmcLen _ v => some v
  | .nop14 _ v => some v
  | .chEnable _ v => some v
  | .nop16 _ v => some v
  | .seqCtrl _ v => some v
  | .rdStatus _ => none
  | .force _ => none
  | .eof _ => none

end Sys2Proof
end

