-- ==== Sys2Proof/WellFormed.lean ====
section
/-! DEFINITION. Which commands are commands of the interface (R101): `ts` below 2^32 and `value` below 2^8.  The
port number needs no check here: a constructor names its port. -/

namespace Sys2Proof

/-- `ts: u32` (R80, R101). -/
def timestampOk (ts : Nat) : Bool := decide (ts < 2 ^ 32)

/-- `value: u8` (R80, R101). -/
def valueOk (v : Nat) : Bool := decide (v < 2 ^ 8)

/-- R101's operand validation. -/
def Instr.wf : Instr → Bool
  | .p0Ctrl ts v => timestampOk ts && valueOk v
  | .p0Sweep ts v => timestampOk ts && valueOk v
  | .p0Lo ts v => timestampOk ts && valueOk v
  | .p0Hi ts v => timestampOk ts && valueOk v
  | .p1Ctrl ts v => timestampOk ts && valueOk v
  | .p1Sweep ts v => timestampOk ts && valueOk v
  | .p1Lo ts v => timestampOk ts && valueOk v
  | .p1Hi ts v => timestampOk ts && valueOk v
  | .triCtrl ts v => timestampOk ts && valueOk v
  | .nop09 ts v => timestampOk ts && valueOk v
  | .triLo ts v => timestampOk ts && valueOk v
  | .triHi ts v => timestampOk ts && valueOk v
  | .noiCtrl ts v => timestampOk ts && valueOk v
  | .nop0D ts v => timestampOk ts && valueOk v
  | .noiMode ts v => timestampOk ts && valueOk v
  | .noiLen ts v => timestampOk ts && valueOk v
  | .dmcCtrl ts v => timestampOk ts && valueOk v
  | .dmcLevel ts v => timestampOk ts && valueOk v
  | .dmcAddr ts v => timestampOk ts && valueOk v
  | .dmcLen ts v => timestampOk ts && valueOk v
  | .nop14 ts v => timestampOk ts && valueOk v
  | .chEnable ts v => timestampOk ts && valueOk v
  | .nop16 ts v => timestampOk ts && valueOk v
  | .seqCtrl ts v => timestampOk ts && valueOk v
  | .rdStatus ts => timestampOk ts
  | .force ts => timestampOk ts
  | .eof ts => timestampOk ts

end Sys2Proof
end

