-- ==== Sys2Proof/Decode.lean ====
section
/-! DEFINITION. The transport word (R81): the decoder, total on all 2^64 words and rejecting by name; the encoder;
the opcode table's rows. -/

namespace Sys2Proof

/-- Why a word is no command (R81, R97). -/
inductive Reject where
  /-- Bits 61..56 are not 0 (R81). -/
  | zeroFieldSet
  /-- `op = 0` and `reg > 0x17` (R81, R97 (b)). -/
  | noSuchPort (reg : Nat)
  /-- `op` is not 0 and `reg` or `value` is not 0 (R81). -/
  | bareFieldsSet
deriving DecidableEq, Repr

/-- The port map of R82: `reg`, `ts`, `value` to the command, none above 0x17. -/
def decodePort (reg ts v : Nat) : Except Reject Instr :=
  match reg with
  | 0x00 => .ok (.p0Ctrl ts v)
  | 0x01 => .ok (.p0Sweep ts v)
  | 0x02 => .ok (.p0Lo ts v)
  | 0x03 => .ok (.p0Hi ts v)
  | 0x04 => .ok (.p1Ctrl ts v)
  | 0x05 => .ok (.p1Sweep ts v)
  | 0x06 => .ok (.p1Lo ts v)
  | 0x07 => .ok (.p1Hi ts v)
  | 0x08 => .ok (.triCtrl ts v)
  | 0x09 => .ok (.nop09 ts v)
  | 0x0A => .ok (.triLo ts v)
  | 0x0B => .ok (.triHi ts v)
  | 0x0C => .ok (.noiCtrl ts v)
  | 0x0D => .ok (.nop0D ts v)
  | 0x0E => .ok (.noiMode ts v)
  | 0x0F => .ok (.noiLen ts v)
  | 0x10 => .ok (.dmcCtrl ts v)
  | 0x11 => .ok (.dmcLevel ts v)
  | 0x12 => .ok (.dmcAddr ts v)
  | 0x13 => .ok (.dmcLen ts v)
  | 0x14 => .ok (.nop14 ts v)
  | 0x15 => .ok (.chEnable ts v)
  | 0x16 => .ok (.nop16 ts v)
  | 0x17 => .ok (.seqCtrl ts v)
  | _ => .error (.noSuchPort reg)

/-- The verdict on one 64-bit word (R81). -/
def decode (w : CommandWord) : Except Reject Instr :=
  let op := (w.extractLsb' 62 2).toNat
  let zero := (w.extractLsb' 56 6).toNat
  let reg := (w.extractLsb' 40 16).toNat
  let value := (w.extractLsb' 32 8).toNat
  let ts := (w.extractLsb' 0 32).toNat
  if zero ≠ 0 then .error .zeroFieldSet
  else if op = 0 then decodePort reg ts value
  else if reg ≠ 0 ∨ value ≠ 0 then .error .bareFieldsSet
  else if op = 1 then .ok (.rdStatus ts)
  else if op = 2 then .ok (.force ts)
  else .ok (.eof ts)

/-- The fields of R81 laid side by side, the most significant first: `op`, the zero field, `reg`, `value`, `ts`. -/
def packWord (op reg value ts : Nat) : CommandWord :=
  BitVec.ofNat 2 op ++ (0#6) ++ BitVec.ofNat 16 reg ++ BitVec.ofNat 8 value ++ BitVec.ofNat 32 ts

/-- The transport word of a well-formed command (R81, R82). -/
def encode : Instr → CommandWord
  | .p0Ctrl ts v => packWord 0 0x00 v ts
  | .p0Sweep ts v => packWord 0 0x01 v ts
  | .p0Lo ts v => packWord 0 0x02 v ts
  | .p0Hi ts v => packWord 0 0x03 v ts
  | .p1Ctrl ts v => packWord 0 0x04 v ts
  | .p1Sweep ts v => packWord 0 0x05 v ts
  | .p1Lo ts v => packWord 0 0x06 v ts
  | .p1Hi ts v => packWord 0 0x07 v ts
  | .triCtrl ts v => packWord 0 0x08 v ts
  | .nop09 ts v => packWord 0 0x09 v ts
  | .triLo ts v => packWord 0 0x0A v ts
  | .triHi ts v => packWord 0 0x0B v ts
  | .noiCtrl ts v => packWord 0 0x0C v ts
  | .nop0D ts v => packWord 0 0x0D v ts
  | .noiMode ts v => packWord 0 0x0E v ts
  | .noiLen ts v => packWord 0 0x0F v ts
  | .dmcCtrl ts v => packWord 0 0x10 v ts
  | .dmcLevel ts v => packWord 0 0x11 v ts
  | .dmcAddr ts v => packWord 0 0x12 v ts
  | .dmcLen ts v => packWord 0 0x13 v ts
  | .nop14 ts v => packWord 0 0x14 v ts
  | .chEnable ts v => packWord 0 0x15 v ts
  | .nop16 ts v => packWord 0 0x16 v ts
  | .seqCtrl ts v => packWord 0 0x17 v ts
  | .rdStatus ts => packWord 1 0 0 ts
  | .force ts => packWord 2 0 0 ts
  | .eof ts => packWord 3 0 0 ts

/-- One row of spec/opcode_table.json: a word matches it when `word &&& mask = pattern` (R81). -/
structure OpcodeRow where
  mnemonic : String
  pattern : CommandWord
  mask : CommandWord
deriving DecidableEq, Repr

/-- A `WRITE` row: the mask covers `op`, the zero field and `reg` (R81). -/
def writeRow (mnemonic : String) (reg : Nat) : OpcodeRow :=
  ⟨mnemonic, BitVec.ofNat 64 (reg * 2 ^ 40), 0xFFFFFF0000000000⟩

/-- The row of a command without operands but its timestamp: the mask covers everything else (R81). -/
def bareRow (mnemonic : String) (op : Nat) : OpcodeRow :=
  ⟨mnemonic, BitVec.ofNat 64 (op * 2 ^ 62), 0xFFFFFFFF00000000⟩

/-- The rows of ports 0x00 to 0x0B (R82). -/
def opcodeRowsLow : List OpcodeRow :=
  [writeRow "P0_CTRL" 0x00,
   writeRow "P0_SWEEP" 0x01,
   writeRow "P0_LO" 0x02,
   writeRow "P0_HI" 0x03,
   writeRow "P1_CTRL" 0x04,
   writeRow "P1_SWEEP" 0x05,
   writeRow "P1_LO" 0x06,
   writeRow "P1_HI" 0x07,
   writeRow "TRI_CTRL" 0x08,
   writeRow "NOP09" 0x09,
   writeRow "TRI_LO" 0x0A,
   writeRow "TRI_HI" 0x0B]

/-- The rows of ports 0x0C to 0x17 (R82). -/
def opcodeRowsHigh : List OpcodeRow :=
  [writeRow "NOI_CTRL" 0x0C,
   writeRow "NOP0D" 0x0D,
   writeRow "NOI_MODE" 0x0E,
   writeRow "NOI_LEN" 0x0F,
   writeRow "DMC_CTRL" 0x10,
   writeRow "DMC_LEVEL" 0x11,
   writeRow "DMC_ADDR" 0x12,
   writeRow "DMC_LEN" 0x13,
   writeRow "NOP14" 0x14,
   writeRow "CH_ENABLE" 0x15,
   writeRow "NOP16" 0x16,
   writeRow "SEQ_CTRL" 0x17]

/-- The 27 rows of the opcode table. -/
def opcodeRows : List OpcodeRow :=
  opcodeRowsLow ++ opcodeRowsHigh ++ [bareRow "RD_STATUS" 1, bareRow "FORCE" 2, bareRow "EOF" 3]

/-- The row a command belongs to. -/
def Instr.row : Instr → OpcodeRow
  | .p0Ctrl _ _ => writeRow "P0_CTRL" 0x00
  | .p0Sweep _ _ => writeRow "P0_SWEEP" 0x01
  | .p0Lo _ _ => writeRow "P0_LO" 0x02
  | .p0Hi _ _ => writeRow "P0_HI" 0x03
  | .p1Ctrl _ _ => writeRow "P1_CTRL" 0x04
  | .p1Sweep _ _ => writeRow "P1_SWEEP" 0x05
  | .p1Lo _ _ => writeRow "P1_LO" 0x06
  | .p1Hi _ _ => writeRow "P1_HI" 0x07
  | .triCtrl _ _ => writeRow "TRI_CTRL" 0x08
  | .nop09 _ _ => writeRow "NOP09" 0x09
  | .triLo _ _ => writeRow "TRI_LO" 0x0A
  | .triHi _ _ => writeRow "TRI_HI" 0x0B
  | .noiCtrl _ _ => writeRow "NOI_CTRL" 0x0C
  | .nop0D _ _ => writeRow "NOP0D" 0x0D
  | .noiMode _ _ => writeRow "NOI_MODE" 0x0E
  | .noiLen _ _ => writeRow "NOI_LEN" 0x0F
  | .dmcCtrl _ _ => writeRow "DMC_CTRL" 0x10
  | .dmcLevel _ _ => writeRow "DMC_LEVEL" 0x11
  | .dmcAddr _ _ => writeRow "DMC_ADDR" 0x12
  | .dmcLen _ _ => writeRow "DMC_LEN" 0x13
  | .nop14 _ _ => writeRow "NOP14" 0x14
  | .chEnable _ _ => writeRow "CH_ENABLE" 0x15
  | .nop16 _ _ => writeRow "NOP16" 0x16
  | .seqCtrl _ _ => writeRow "SEQ_CTRL" 0x17
  | .rdStatus _ => bareRow "RD_STATUS" 1
  | .force _ => bareRow "FORCE" 2
  | .eof _ => bareRow "EOF" 3

/-- An instruction given by its bits, bit 0 least significant: the word is a number with no byte order (R71, R81). -/
def tableWord (nbits w : Nat) : CommandWord := BitVec.ofNat 64 (w % 2 ^ nbits)

/-- What the decoder reads from an instruction whose bits are `w` (every row of the table has 64 bits). -/
def decodeTableWord (nbits w : Nat) : Option Instr :=
  match decode (tableWord nbits w) with
  | .ok i => some i
  | .error _ => none

end Sys2Proof
end

