-- ==== Sys2Proof/Machine/State.lean ====
section
/-! DEFINITION. The state record (R22 to R36), the environment record beside it (R43), the model's own inputs, the
reasons a step can stop, and the reset state (R41, R280).  Plain data throughout. -/

namespace Sys2Proof.Machine

/-! ### Names of the units (R15) -/

/-- Channel index `ch`: 0 Pulse 0, 1 Pulse 1, 2 Triangle, 3 Noise (R15). -/
inductive Chan where
  | pulse0 | pulse1 | tri | noise
deriving DecidableEq, Repr

/-- Envelope index `e`: 0 Pulse 0, 1 Pulse 1, 2 Noise (R15). -/
inductive EnvIx where
  | pulse0 | pulse1 | noise
deriving DecidableEq, Repr

/-- Pulse index `p` (R15). -/
inductive PulseIx where
  | pulse0 | pulse1
deriving DecidableEq, Repr

/-- One thing per channel (R15). -/
structure PerChan (α : Type) where
  pulse0 : α
  pulse1 : α
  tri : α
  noise : α
deriving DecidableEq, Repr

/-- One thing per envelope (R24). -/
structure PerEnv (α : Type) where
  pulse0 : α
  pulse1 : α
  noise : α
deriving DecidableEq, Repr

/-- One thing per pulse channel (R25). -/
structure PerPulse (α : Type) where
  pulse0 : α
  pulse1 : α
deriving DecidableEq, Repr

/-- `x[ch]`. -/
def PerChan.get {α : Type} (x : PerChan α) : Chan → α
  | .pulse0 => x.pulse0
  | .pulse1 => x.pulse1
  | .tri => x.tri
  | .noise => x.noise

/-- `x[ch] <- a`. -/
def PerChan.set {α : Type} (x : PerChan α) (ch : Chan) (a : α) : PerChan α :=
  match ch with
  | .pulse0 => { x with pulse0 := a }
  | .pulse1 => { x with pulse1 := a }
  | .tri => { x with tri := a }
  | .noise => { x with noise := a }

/-- `x[e]`. -/
def PerEnv.get {α : Type} (x : PerEnv α) : EnvIx → α
  | .pulse0 => x.pulse0
  | .pulse1 => x.pulse1
  | .noise => x.noise

/-- `x[e] <- a`. -/
def PerEnv.set {α : Type} (x : PerEnv α) (e : EnvIx) (a : α) : PerEnv α :=
  match e with
  | .pulse0 => { x with pulse0 := a }
  | .pulse1 => { x with pulse1 := a }
  | .noise => { x with noise := a }

/-- `x[p]`. -/
def PerPulse.get {α : Type} (x : PerPulse α) : PulseIx → α
  | .pulse0 => x.pulse0
  | .pulse1 => x.pulse1

/-- `x[p] <- a`. -/
def PerPulse.set {α : Type} (x : PerPulse α) (p : PulseIx) (a : α) : PerPulse α :=
  match p with
  | .pulse0 => { x with pulse0 := a }
  | .pulse1 => { x with pulse1 := a }

/-- The channel a pulse index names. -/
def PulseIx.chan : PulseIx → Chan
  | .pulse0 => .pulse0
  | .pulse1 => .pulse1

/-- The envelope a pulse index names. -/
def PulseIx.env : PulseIx → EnvIx
  | .pulse0 => .pulse0
  | .pulse1 => .pulse1

/-- The channel an envelope belongs to (R123: ch(0)=0, ch(1)=1, ch(2)=3). -/
def EnvIx.chan : EnvIx → Chan
  | .pulse0 => .pulse0
  | .pulse1 => .pulse1
  | .noise => .noise

/-! ### The units' state (R24 to R31) -/

/-- Envelope `env[e]` (R24). -/
structure Envelope where
  period : BitVec 4
  divider : BitVec 4
  level : BitVec 4
  constant : Bool
  loop : Bool
  reload : Bool
deriving DecidableEq, Repr

/-- Sweep `sweep[p]` (R25). -/
structure Sweep where
  period : BitVec 3
  divider : BitVec 3
  enabled : Bool
  negate : Bool
  shift : BitVec 3
  reload : Bool
deriving DecidableEq, Repr

/-- Triangle `tri` (R28).  `updateAt` is `none` for `INF` (R23). -/
structure Triangle where
  period : BitVec 11
  control : Byte
  linear : BitVec 7
  linearReload : Bool
  updateAt : Option Nat
deriving DecidableEq, Repr

/-- Noise `noise` (R29).  `prng` is a `PrngState` (assumption log 3). -/
structure Noise where
  mode : Bool
  prng : PrngState
deriving DecidableEq, Repr

/-- Delta-modulation player `dmc` (R30).  `nextCommit` is `none` for `INF` (R23). -/
structure Dmc where
  shifter : Byte
  bitsRem : Nat
  loop : Bool
  irqEnable : Bool
  rate : BitVec 4
  period : Nat
  nextCommit : Option Nat
  level : Byte
  stagedDelta : Int
  stagedSample : Nat
  cursor : Word16
  bytesRem : Nat
  start : Byte
  len : Byte
  active : Bool
deriving DecidableEq, Repr

/-- The two step patterns' names (R31: 0 four-step, 1 five-step). -/
inductive SeqMode where
  | fourStep | fiveStep
deriving DecidableEq, Repr

/-- Frame sequencer `seq` (R31). -/
structure Sequencer where
  step : BitVec 2
  mode : SeqMode
  stepP2 : Nat
  half : Bool
  nextTick : Nat
  irqInhibit : Bool
  frameIrq : Bool
deriving DecidableEq, Repr

/-! ### The environment (R43, R60 to R70) -/

/-- One slot record `(sample, w0, w1, w2, w3, ctrl)` (R63). -/
structure Slot where
  sample : Nat
  w0 : Word16
  w1 : Word16
  w2 : Word16
  w3 : Word16
  ctrl : Byte
deriving DecidableEq, Repr

/-- The sample memory's pinned bytes: an address listed answers its byte at every read, an address not listed answers
the oracle (R61; assumption log 2). -/
abbrev Memory := List Host.Cell

/-- The slot buffer `slots`: a cursor not listed is `unwritten` (R63). -/
abbrev SlotBuffer := List (Nat × Slot)

/-- The delta stream `deltas`: a sample index not listed holds 0 (R66). -/
abbrev DeltaStream := List (Nat × Int)

/-- Output events (R69). -/
inductive Event where
  | slot (cursor : Nat) (record : Slot)
  | delta (sample : Nat) (value : Int)
  | fetch (addr : Word16) (byte : Byte)
  | dmcDone (irqEnable : Bool)
  | status (byte : Byte)
deriving DecidableEq, Repr

/-- Which agent takes a turn (R6, R70; assumption log 5). -/
inductive Turn where
  | engine | consumer
deriving DecidableEq, Repr

/-! ### Why a step stops -/

/-- The faults of R260.  Both are recorded in `State.fault` by the command that raises them, and `step` answers them
on every engine turn after that (assumption log 4).  Safe: nothing can be proved of a run past one. -/
inductive Fault where
  /-- Code 1, raised by every command whose timestamp is below `last_ts` (R102, R262).  Safe. -/
  | timingViolation (ts lastTs : Nat)
  /-- Code 2, raised by `Sync` when the sample index is below `pending_sample` (R226, R264).  Safe. -/
  | sampleIndexRegression (s pendingSample : Nat)
deriving DecidableEq, Repr

/-- The codes of R260's table. -/
def Fault.code : Fault → Nat
  | .timingViolation _ _ => 1
  | .sampleIndexRegression _ _ => 2

/-- The refusals of R261: the state is untouched and the run ends. -/
inductive Refusal where
  /-- An arm of `exec` without a meaning; no arm is left so.  Safe. -/
  | notModelled (mnemonic : String)
  /-- Raised by `step` for a transport word that spells no command (R81, R97 (b), R261).  Safe. -/
  | invalidWord (word : CommandWord) (why : Reject)
  /-- Raised by every meaning for a command whose operands are outside the interface's types (R101, R261).  Safe. -/
  | operandsOutOfRange (command : Instr)
deriving DecidableEq, Repr

/-! ### The state -/

/-- Everything the spec gives the machine: the configuration (R7), the block's state `st` (R22), the environment
`envr` (R43, R61), the model's own inputs. -/
structure State where
  /-- `Cfg`, written by no step (R7, R12). -/
  cfg : Cfg
  /-- R24. -/
  env : PerEnv Envelope
  /-- R25. -/
  sweep : PerPulse Sweep
  /-- R26. -/
  length : PerChan (BitVec 8)
  /-- R27. -/
  lenEnable : PerChan Bool
  /-- R28. -/
  tri : Triangle
  /-- R29. -/
  noise : Noise
  /-- R30. -/
  dmc : Dmc
  /-- R31. -/
  seq : Sequencer
  /-- R32. -/
  cache : PerChan Word16
  /-- R33. -/
  pending : PerChan Word16
  /-- R33. -/
  pendingCtrl : Byte
  /-- R33. -/
  pendingSample : Nat
  /-- R33. -/
  writeCursor : Nat
  /-- R34. -/
  offset : Nat
  /-- R34. -/
  lastTs : Nat
  /-- R35: the timestamp of an `EOF` held at the backpressure wait. -/
  eofWait : Option Nat
  /-- R36. -/
  fault : Option Fault
  /-- The sample memory as far as it is pinned (R61). -/
  mem : Memory
  /-- `envr.slots` (R43, R63). -/
  slots : SlotBuffer
  /-- `envr.deltas` (R43, R66). -/
  deltas : DeltaStream
  /-- `envr.read_pos` (R43, R68). -/
  readPos : Nat
  /-- `envr.events`, oldest first (R43, R69). -/
  events : List Event
  /-- The producer's command stream, next command first (R42; assumption log 6). -/
  cmds : List CommandWord
  /-- The agents' schedule, next turn first; empty is the engine's turn (R42, R70; assumption log 5). -/
  turns : List Turn
deriving DecidableEq, Repr

/-- An envelope at reset (R41). -/
def Envelope.reset : Envelope := ⟨0, 0, 0, false, false, false⟩

/-- A sweep at reset (R41). -/
def Sweep.reset : Sweep := ⟨0, 0, false, false, 0, false⟩

/-- The reset state under a configuration (R41, R280: `reset : Cfg -> State × Envr`). -/
def State.resetOf (c : Cfg) : State where
  cfg := c
  env := ⟨.reset, .reset, .reset⟩
  sweep := ⟨.reset, .reset⟩
  length := ⟨0, 0, 0, 0⟩
  lenEnable := ⟨false, false, false, false⟩
  tri := { period := 0, control := 0, linear := 0, linearReload := false, updateAt := none }
  noise := { mode := false, prng := c.prngInit }
  dmc := { shifter := 0, bitsRem := 0, loop := false, irqEnable := false, rate := 0, period := c.dmcRate[0],
           nextCommit := none, level := 0, stagedDelta := 0, stagedSample := 0, cursor := 0x8000, bytesRem := 0,
           start := 0, len := 0, active := false }
  seq := { step := 0, mode := .fourStep, stepP2 := c.stepP2Four, half := true, nextTick := c.stepP2Four >>> 1,
           irqInhibit := false, frameIrq := false }
  cache := ⟨0, 0, 0, 0⟩
  pending := ⟨0, 0, 0, 0⟩
  pendingCtrl := 0
  pendingSample := 0
  writeCursor := 0
  offset := 0
  lastTs := 0
  eofWait := none
  fault := none
  mem := []
  slots := []
  deltas := []
  readPos := 0
  events := []
  cmds := []
  turns := []

/-- The machine right after reset, in the test configuration T0 (R41, R11; assumption logs 1 and 10). -/
def State.reset : State := State.resetOf Config.t0

end Sys2Proof.Machine
end

