-- ==== Sys2Proof/Machine/Ops.lean ====
section
/-! DEFINITION. The named operations: sequencing and raising a fault (R260), bit fields (R13), the address spaces
(R60 to R70), the sample index (R245), the timestamp check (R102). -/

namespace Sys2Proof.Machine

/-! ### Faults and sequencing (R260, R100) -/

/-- `raise F(info)` (R260): record the fault; effects already performed stay. -/
def raise (f : Fault) (s : State) : State := { s with fault := some f }

/-- Go on with `k` unless a fault stands: a raised fault performs none of the remaining effects (R260). -/
def andThen (s : State) (k : State → State) : State :=
  match s.fault with
  | none => k s
  | some _ => s

/-- `CheckTime(ts)` (R102): equal timestamps pass. -/
def checkTime (ts : Nat) (s : State) : State :=
  if ts < s.lastTs then raise (.timingViolation ts s.lastTs) s else { s with lastTs := ts }

/-! ### Bit fields (R13) -/

/-- `w[lo+n-1:lo]`. -/
def field (w : Word16) (lo n : Nat) : BitVec n := w.extractLsb' lo n

/-- `w[lo+n-1:lo] <- v`, the other bits unchanged. -/
def setField {n : Nat} (w : Word16) (lo : Nat) (v : BitVec n) : Word16 :=
  (w &&& ~~~((BitVec.allOnes n).setWidth 16 <<< lo)) ||| (v.setWidth 16 <<< lo)

/-- A bit as a one-bit field. -/
def bit (b : Bool) : BitVec 1 := BitVec.ofBool b

/-! ### Sparse contents in canonical form: keys strictly rising -/

/-- The entry at a key, if one is listed. -/
def sparseGet {α : Type} (k : Nat) : List (Nat × α) → Option α
  | [] => none
  | (a, x) :: rest => if a = k then some x else sparseGet k rest

/-- List `x` at `k`, in place of what was listed there. -/
def sparsePut {α : Type} (k : Nat) (x : α) : List (Nat × α) → List (Nat × α)
  | [] => [(k, x)]
  | (a, y) :: rest =>
    if k < a then (k, x) :: (a, y) :: rest
    else if k = a then (k, x) :: rest
    else (a, y) :: sparsePut k x rest

/-- List nothing at `k`. -/
def sparseDrop {α : Type} (k : Nat) : List (Nat × α) → List (Nat × α)
  | [] => []
  | (a, y) :: rest => if a = k then rest else (a, y) :: sparseDrop k rest

/-- Keys strictly rising. -/
abbrev sparseRising {α : Type} (m : List (Nat × α)) : Prop := (m.map Prod.fst).Pairwise (· < ·)

/-- The sample memory's canonical form: rising addresses of the 16-bit space (R60).  An unlisted address reads as the
oracle's free value, which no entry can repeat. -/
abbrev Memory.wf (m : Memory) : Prop := sparseRising m ∧ ∀ c ∈ m, c.1 < 65536

/-- The slot buffer's canonical form: rising cursors; an unlisted slot is unwritten (R63). -/
abbrev SlotBuffer.wf (m : SlotBuffer) : Prop := sparseRising m

/-- The delta stream's canonical form: rising indices, no entry 0, which is what an unlisted index holds (R66). -/
abbrev DeltaStream.wf (m : DeltaStream) : Prop := sparseRising m ∧ ∀ e ∈ m, e.2 ≠ 0

/-! ### Output events (R69) -/

/-- `Report(e)`. -/
def report (e : Event) (s : State) : State := { s with events := s.events ++ [e] }

/-! ### Sample memory (R61) -/

/-- The history of earlier reads, from the events (R61). -/
def fetchHistory : List Event → List (Word16 × Byte)
  | [] => []
  | .fetch a b :: rest => (a, b) :: fetchHistory rest
  | .slot _ _ :: rest => fetchHistory rest
  | .delta _ _ :: rest => fetchHistory rest
  | .dmcDone _ :: rest => fetchHistory rest
  | .status _ :: rest => fetchHistory rest

/-- The byte a read answers: the pinned byte, or the oracle's (R61; assumption log 2). -/
def sampleAt (addr : Word16) (s : State) : Byte :=
  match sparseGet addr.toNat s.mem with
  | some b => b
  | none => Config.sampleByte (fetchHistory s.events) addr

/-- The record a `MemRead(addr, 1)` leaves (R61); the byte is `sampleAt addr s`. -/
def recordFetch (addr : Word16) (s : State) : State := report (.fetch addr (sampleAt addr s)) s

/-- The producer's side pins a byte of sample memory (R281 (3)); no step of the block does. -/
def pinSample (addr : Word16) (b : Byte) (s : State) : State := { s with mem := sparsePut addr.toNat b s.mem }

/-! ### Slot buffer (R63, R64) -/

/-- What a slot holds; `none` is `unwritten`. -/
def slotAt (cursor : Nat) (s : State) : Option Slot := sparseGet cursor s.slots

/-- `SlotWrite(cursor, …)` (R64). -/
def slotWrite (cursor : Nat) (r : Slot) (s : State) : State :=
  report (.slot cursor r) { s with slots := sparsePut cursor r s.slots }

/-! ### Delta stream (R66, R67) -/

/-- The entry of a sample index, 0 where none is listed. -/
def deltaAt (sample : Nat) (s : State) : Int := (sparseGet sample s.deltas).getD 0

/-- The stream with `v` at an index; writing 0 lists nothing there. -/
def deltaPut (sample : Nat) (v : Int) (m : DeltaStream) : DeltaStream :=
  if v = 0 then sparseDrop sample m else sparsePut sample v m

/-- `DeltaWrite(s, v)` (R67). -/
def deltaWrite (sample : Nat) (v : Int) (s : State) : State :=
  report (.delta sample v) { s with deltas := deltaPut sample v s.deltas }

/-! ### The consumer (R68, R70) and the agents' turns -/

/-- `ReadPos()` (R68). -/
def readPosition (s : State) : Nat := s.readPos

/-- `ConsumerAdvance` where it is enabled; a turn at which it is not changes nothing (R70; assumption log 5). -/
def consumerAdvance (s : State) : State :=
  if s.readPos ≠ s.writeCursor then { s with readPos := (s.readPos + 1) % s.cfg.nslots } else s

/-- Whose turn it is, and the state with that turn taken off the schedule (assumption log 5). -/
def takeTurn (s : State) : Turn × State :=
  match s.turns with
  | [] => (.engine, s)
  | t :: rest => (t, { s with turns := rest })

/-- What an engine turn finds (R100, R260, R251; assumption logs 4, 6 and 7). -/
inductive EngineWork where
  /-- A fault stands: no further step (R260). -/
  | faulted (f : Fault)
  /-- An `EOF` is held at the wait (R107, R251). -/
  | held (ts : Nat)
  /-- No command is presented. -/
  | idle
  /-- The next command's transport word. -/
  | command (w : CommandWord)
deriving DecidableEq, Repr

/-- R100: a command is taken only when `fault = none` and `eof_wait = none`. -/
def engineWork (s : State) : EngineWork :=
  match s.fault, s.eofWait, s.cmds with
  | some f, _, _ => .faulted f
  | none, some t, _ => .held t
  | none, none, [] => .idle
  | none, none, w :: _ => .command w

/-- The state with the presented command taken off the stream. -/
def takeCommand (s : State) : State := { s with cmds := s.cmds.tail }

/-! ### Sample index (R245) -/

/-- `SampleIndex(t)` (R245). -/
def sampleIndex (t : Nat) (s : State) : Nat := (t * s.cfg.scale + s.offset) >>> Config.shift

end Sys2Proof.Machine
end

