-- ==== Sys2Proof/Machine/Operands.lean ====
section
/-! DEFINITION. The operand forms: R101's validation, and the fields of the written byte, port by port (R83 to R96).
Bits a rule marks "ignored" are read by no function here (R97 (c), U5). -/

namespace Sys2Proof.Machine

/-- R101, R261: run the command, or refuse it with the state untouched. -/
def validated (i : Instr) (k : State → State) (s : State) : Host.Outcome State Fault Refusal :=
  if i.wf then .next (k s) else .refused (.operandsOutOfRange i)

/-- The data byte of a validated command. -/
def dataByte (v : Nat) : Byte := BitVec.ofNat 8 v

/-- `v[7:6]`, duty (R83). -/
def ctrlDuty (v : Byte) : BitVec 2 := v.extractLsb' 6 2

/-- `v[5]`, envelope loop and length halt (R83, R90). -/
def ctrlLoop (v : Byte) : Bool := v.getLsbD 5

/-- `v[4]`, constant flag (R83, R90). -/
def ctrlConstant (v : Byte) : Bool := v.getLsbD 4

/-- `v[3:0]`, envelope period (R83, R90). -/
def ctrlPeriod (v : Byte) : BitVec 4 := v.extractLsb' 0 4

/-- `v[7]`, enabled (R84). -/
def sweepEnabled (v : Byte) : Bool := v.getLsbD 7

/-- `v[6:4]`, divider period (R84). -/
def sweepPeriod (v : Byte) : BitVec 3 := v.extractLsb' 4 3

/-- `v[3]`, negate (R84). -/
def sweepNegate (v : Byte) : Bool := v.getLsbD 3

/-- `v[2:0]`, shift amount (R84). -/
def sweepShift (v : Byte) : BitVec 3 := v.extractLsb' 0 3

/-- `v[7:3]`, length-table index (R86, R89, R92). -/
def lengthIndex (v : Byte) : BitVec 5 := v.extractLsb' 3 5

/-- `v[2:0]`, period bits 10..8 (R86, R89). -/
def periodHigh (v : Byte) : BitVec 3 := v.extractLsb' 0 3

/-- `control[7]`, the triangle's halt flag (R87). -/
def triHalt (control : Byte) : Bool := control.getLsbD 7

/-- `control[6:0]`, the linear-counter reload value (R87). -/
def triReload (control : Byte) : BitVec 7 := control.extractLsb' 0 7

/-- `v[7]`, the mode bit (R91). -/
def noiseMode (v : Byte) : Bool := v.getLsbD 7

/-- `v[3:0]`, the frequency index (R91). -/
def noiseFrequency (v : Byte) : BitVec 4 := v.extractLsb' 0 4

/-- `v[7]`, irq-enable (R93). -/
def dmcIrqEnable (v : Byte) : Bool := v.getLsbD 7

/-- `v[6]`, loop (R93). -/
def dmcLoop (v : Byte) : Bool := v.getLsbD 6

/-- `v[3:0]`, rate index (R93). -/
def dmcRateIndex (v : Byte) : BitVec 4 := v.extractLsb' 0 4

/-- The length-enable bit of a channel (R95: the order of R15). -/
def enableBit (v : Byte) : Chan → Bool
  | .pulse0 => v.getLsbD 0
  | .pulse1 => v.getLsbD 1
  | .tri => v.getLsbD 2
  | .noise => v.getLsbD 3

/-- `v[4]`, Delta-Modulation enable (R95). -/
def enableDmc (v : Byte) : Bool := v.getLsbD 4

/-- `v[7]`, mode and clock-immediately (R96). -/
def seqModeBit (v : Byte) : Bool := v.getLsbD 7

/-- `v[6]`, interrupt-inhibit (R96). -/
def seqInhibit (v : Byte) : Bool := v.getLsbD 6

/-- The mode a mode bit selects (R31, R96). -/
def seqModeOf (b : Bool) : SeqMode := if b then .fiveStep else .fourStep

/-! ### Table reads -/

/-- `LENGTH_TABLE[i]` (R169). -/
def lengthEntry (c : Cfg) (i : BitVec 5) : BitVec 8 := c.lengthTable[i.toNat]'i.isLt

/-- `DMC_RATE[i]` (R201). -/
def rateEntry (c : Cfg) (i : BitVec 4) : Nat := c.dmcRate[i.toNat]'i.isLt

/-- `STEP_P2[mode]` (R7, R185). -/
def stepP2Of (c : Cfg) : SeqMode → Nat
  | .fourStep => c.stepP2Four
  | .fiveStep => c.stepP2Five

end Sys2Proof.Machine
end

