-- ==== Sys2Proof/Machine/Flags.lean ====
section
/-! DEFINITION. The flags (R37): the derived active bits (R167), the halts (R166), the frame flag (R184) and the
status byte (R170, R98).  The block has no arithmetic condition codes. -/

namespace Sys2Proof.Machine

/-- `Active(ch)`: `length[ch] != 0`, not stored (R167). -/
def active (ch : Chan) (s : State) : Bool := s.length.get ch != 0

/-- `Halt(ch)` (R166). -/
def halted (ch : Chan) (s : State) : Bool :=
  match ch with
  | .pulse0 => s.env.pulse0.loop
  | .pulse1 => s.env.pulse1.loop
  | .tri => triHalt s.tri.control
  | .noise => s.env.noise.loop

/-- `FrameFlag(s)` for the step at the tick's entry (R184). -/
def frameFlag (entry : BitVec 2) (s : State) : State :=
  if s.seq.mode = .fourStep ∧ entry = 3 ∧ s.seq.irqInhibit = false then
    { s with seq := { s.seq with frameIrq := true } }
  else s

/-- The byte `StatusByte()` returns: bits 3..0 active, 4 `dmc.active`, 6 the frame flag, 5 and 7 zero (R170, R98;
assumption log 9). -/
def statusByte (s : State) : Byte :=
  bit false ++ bit s.seq.frameIrq ++ bit false ++ bit s.dmc.active ++
    bit (active .noise s) ++ bit (active .tri s) ++ bit (active .pulse1 s) ++ bit (active .pulse0 s)

/-- `StatusByte()`'s side effect: `seq.frame_irq <- 0` (R170). -/
def clearFrameFlag (s : State) : State := { s with seq := { s.seq with frameIrq := false } }

end Sys2Proof.Machine
end

