-- ==== Sys2Proof/Machine/Sync.lean ====
section
/-! DEFINITION. The FIFO synchroniser (R225 to R235): the flush, the rebuild with muting, `Sync`, the staging of
control bits. -/

namespace Sys2Proof.Machine

/-- The period field of a pulse word (R98: bits 14..4). -/
def pulsePeriod (w : Word16) : BitVec 11 := field w 4 11

/-- The post-sweep mute test: add direction, `per + (per >> shift) > 0x7FF` (R229). -/
def sweepOverflows (sw : Sweep) (per : Nat) : Bool :=
  !sw.negate && decide (per + (per >>> sw.shift.toNat) > 0x7FF)

/-- `Staged(p)` (R229). -/
def stagedPulse (p : PulseIx) (s : State) : Word16 :=
  let w := s.cache.get p.chan
  let per := (pulsePeriod w).toNat
  if !active p.chan s then 0
  else if per < 8 then 0
  else if sweepOverflows (s.sweep.get p) per then 0
  else w

/-- `Staged(2)` (R230). -/
def stagedTri (s : State) : Word16 := if active .tri s then s.cache.tri else 0

/-- `Staged(3)` (R231). -/
def stagedNoise (s : State) : Word16 :=
  if active .noise s then s.cache.noise else s.cache.noise &&& ~~~s.cfg.noiseFields

/-- `Staged(ch)` for all four channels (R228 to R231). -/
def staged (s : State) : PerChan Word16 :=
  ⟨stagedPulse .pulse0 s, stagedPulse .pulse1 s, stagedTri s, stagedNoise s⟩

/-- The slot the flush writes (R226 step 2, R227 (a)). -/
def pendingSlot (s : State) : Slot :=
  ⟨s.pendingSample, s.pending.pulse0, s.pending.pulse1, s.pending.tri, s.pending.noise, s.pendingCtrl⟩

/-- The flush (R226 step 2, R227). -/
def flush (s : State) : State :=
  { slotWrite s.writeCursor (pendingSlot s) s with
    writeCursor := (s.writeCursor + 1) % s.cfg.nslots
    pendingCtrl := 0 }

/-- The rebuild (R226 steps 3 and 4). -/
def rebuild (i : Nat) (s : State) : State := { s with pending := staged s, pendingSample := i }

/-- `Sync(t)` (R226). -/
def sync (t : Nat) (s : State) : State :=
  let i := sampleIndex t s
  if i < s.pendingSample then raise (.sampleIndexRegression i s.pendingSample) s
  else if i ≠ s.pendingSample then rebuild i (flush s)
  else rebuild i s

/-- Staging control bits after the `Sync` of the same timestamp (R232). -/
def stageCtrl (bits : Byte) (s : State) : State := { s with pendingCtrl := s.pendingCtrl ||| bits }

end Sys2Proof.Machine
end

