-- ==== Sys2Proof/Machine/Units.lean ====
section
/-! DEFINITION. The clocked units: envelope (R122, R123), sweep (R126, R127), linear counter and the triangle's word
(R143, R145, R146), length counter (R165, R169). -/

namespace Sys2Proof.Machine

/-! ### Envelope -/

/-- `Volume(e)` (R122). -/
def volume (e : Envelope) : BitVec 4 := if e.constant then e.period else e.level

/-- The envelope's part of `ClockEnvelope` (R123). -/
def envelopeClocked (e : Envelope) : Envelope :=
  if e.reload then { e with reload := false, level := 15, divider := e.period }
  else if e.divider = 0 then
    { e with
      divider := e.period
      level := if e.level ≠ 0 then e.level - 1 else if e.loop then 15 else 0 }
  else { e with divider := e.divider - 1 }

/-- Set the volume nibble of the owning channel's Cache word to `Volume(env[e])` (R122). -/
def refreshVolume (e : EnvIx) (s : State) : State :=
  { s with cache := s.cache.set e.chan (setField (s.cache.get e.chan) 0 (volume (s.env.get e))) }

/-- `ClockEnvelope(e)` (R123). -/
def clockEnvelope (e : EnvIx) (s : State) : State :=
  refreshVolume e { s with env := s.env.set e (envelopeClocked (s.env.get e)) }

/-! ### Sweep -/

/-- The sweep's magnitude: `(per * |SWEEP_MULT|) >> 8` (R127, R9). -/
def sweepMagnitude (sw : Sweep) (per : Nat) : Nat :=
  (per * (Config.sweepMult sw.negate sw.shift).natAbs) >>> 8

/-- Channel 0 subtracts one more in the negate direction (R127). -/
def sweepExtra : PulseIx → Nat
  | .pulse0 => 1
  | .pulse1 => 0

/-- The period `SweepUpdate(p)` writes, if it writes one (R127). -/
def sweepTarget (p : PulseIx) (sw : Sweep) (per : BitVec 11) : Option (BitVec 11) :=
  let mag := sweepMagnitude sw per.toNat
  if per.toNat < 8 then none
  else if sw.negate then some (BitVec.ofInt 11 ((per.toNat : Int) - mag - sweepExtra p))
  else if per.toNat + mag > 2047 then none
  else some (BitVec.ofNat 11 (per.toNat + mag))

/-- `SweepUpdate(p)` (R127). -/
def sweepUpdate (p : PulseIx) (s : State) : State :=
  match sweepTarget p (s.sweep.get p) (pulsePeriod (s.cache.get p.chan)) with
  | some per => { s with cache := s.cache.set p.chan (setField (s.cache.get p.chan) 4 per) }
  | none => s

/-- The sweep's own part of `ClockSweep`: divider and reload flag (R126). -/
def sweepClocked (sw : Sweep) : Sweep :=
  if sw.divider = 0 ∨ sw.reload = true then { sw with divider := sw.period, reload := false }
  else { sw with divider := sw.divider - 1 }

/-- When `ClockSweep` updates the period (R126). -/
def sweepDue (sw : Sweep) : Bool := sw.divider == 0 && sw.enabled && sw.shift != 0

/-- `ClockSweep(p)` (R126). -/
def clockSweep (p : PulseIx) (s : State) : State :=
  let s1 := if sweepDue (s.sweep.get p) then sweepUpdate p s else s
  { s1 with sweep := s1.sweep.set p (sweepClocked (s1.sweep.get p)) }

/-! ### Length counter -/

/-- The value a clocked length counter takes (R165). -/
def lengthClocked (halt : Bool) (n : BitVec 8) : BitVec 8 := if !halt && n != 0 then n - 1 else n

/-- `ClockLength(ch)` (R165). -/
def clockLength (ch : Chan) (s : State) : State :=
  { s with length := s.length.set ch (lengthClocked (halted ch s) (s.length.get ch)) }

/-- Did the triangle's counter go from non-zero to zero (R165's returned request, R147 (b))? -/
def lengthRequest (before after : State) : Bool := before.length.tri != 0 && after.length.tri == 0

/-- The length load of a port write: only while the length-enable bit is set (R169). -/
def loadLength (ch : Chan) (v : Byte) (s : State) : State :=
  if s.lenEnable.get ch then { s with length := s.length.set ch (lengthEntry s.cfg (lengthIndex v)) } else s

/-! ### Triangle -/

/-- `ArmTriDelay(ts)` (R143). -/
def armTriDelay (ts : Nat) (s : State) : State :=
  { s with tri := { s.tri with updateAt := some (ts + Config.triDelay) } }

/-- The triangle's part of `ClockLinear` (R145). -/
def linearClocked (t : Triangle) : Triangle :=
  { t with
    linear := if t.linearReload then triReload t.control else if t.linear ≠ 0 then t.linear - 1 else t.linear
    linearReload := if triHalt t.control then t.linearReload else false }

/-- `ClockLinear()` (R145). -/
def clockLinear (s : State) : State := { s with tri := linearClocked s.tri }

/-- Did the linear counter's zero-ness change (R145's returned request, R147 (b))? -/
def linearRequest (before after : State) : Bool := (before.tri.linear != 0) != (after.tri.linear != 0)

/-- `TriWord()` (R146). -/
def triWord (s : State) : Word16 :=
  if s.length.tri ≠ 0 ∧ s.tri.linear ≠ 0 then setField 0 4 s.tri.period else 0

/-- A recompute point of `cache[2]` (R147). -/
def recomputeTri (s : State) : State := { s with cache := s.cache.set .tri (triWord s) }

/-- `TriExpire(T)` (R144). -/
def triExpire (T : Nat) (s : State) : State :=
  let s1 := recomputeTri s
  sync T { s1 with tri := { s1.tri with updateAt := none } }

end Sys2Proof.Machine
end

