-- ==== Sys2Proof/Machine/Sequencing.lean ====
section
/-! DEFINITION. The frame sequencer's tick and its schedule (R180 to R186). -/

namespace Sys2Proof.Machine

/-- What `NextStepLen()` returns (R181). -/
def stepLength (q : Sequencer) : Nat := (q.stepP2 + q.half.toNat) >>> 1

/-- `next_tick <- T + NextStepLen()`, which toggles `half` (R181, R182). -/
def scheduleTick (T : Nat) (s : State) : State :=
  { s with seq := { s.seq with nextTick := T + stepLength s.seq, half := !s.seq.half } }

/-- The three envelopes of a tick (R183). -/
def clockEnvelopes (s : State) : State := clockEnvelope .noise (clockEnvelope .pulse1 (clockEnvelope .pulse0 s))

/-- The four length counters of an even tick (R183). -/
def clockLengths (s : State) : State :=
  clockLength .noise (clockLength .tri (clockLength .pulse1 (clockLength .pulse0 s)))

/-- The two sweeps of an even tick (R183). -/
def clockSweeps (s : State) : State := clockSweep .pulse1 (clockSweep .pulse0 s)

/-- Lengths and sweeps, on ticks whose entry step has bit 0 clear (R183). -/
def clockHalfStep (entry : BitVec 2) (s : State) : State :=
  if entry.getLsbD 0 = false then clockSweeps (clockLengths s) else s

/-- `seq.step <- (s + 1) mod 4` (R183). -/
def advanceStep (entry : BitVec 2) (s : State) : State := { s with seq := { s.seq with step := entry + 1 } }

/-- The units a tick clocks, before its recompute and its `Sync` (R183). -/
def clockUnits (s : State) : State :=
  let entry := s.seq.step
  advanceStep entry (frameFlag entry (clockHalfStep entry (clockLinear (clockEnvelopes s))))

/-- `req` of R183: the linear counter's zero-ness changed, or the triangle's length reached zero. -/
def recomputeRequested (before after : State) : Bool := linearRequest before after || lengthRequest before after

/-- `Tick(T)` (R183). -/
def tick (T : Nat) (s : State) : State :=
  let s1 := clockUnits s
  sync T (if recomputeRequested s s1 then recomputeTri s1 else s1)

end Sys2Proof.Machine
end

