-- ==== Sys2Proof/Machine/Player.lean ====
section
/-! DEFINITION. The delta-modulation sample player: its tick and the delta stream (R200, R205 to R213). -/

namespace Sys2Proof.Machine

/-- `Restart()` (R206). -/
def dmcRestart (s : State) : State :=
  { s with dmc := { s.dmc with
      cursor := BitVec.ofNat 16 (s.cfg.dmcBase + (s.dmc.start.toNat <<< 6))
      bytesRem := (s.dmc.len.toNat <<< 4) + 1 } }

/-- `NextCursor(c)` (R207). -/
def nextCursor (c : Word16) : Word16 := (c + 1) ||| 0x8000

/-- `Emit(d, t)` (R212). -/
def emit (d : Int) (t : Nat) (s : State) : State :=
  let i := sampleIndex t s
  let sum := if i = s.dmc.stagedSample then s.dmc.stagedDelta + d else d
  deltaWrite i sum { s with dmc := { s.dmc with stagedSample := i, stagedDelta := sum } }

/-- The delta `ApplyBit(bit)` returns (R209). -/
def bitDelta (b : Bool) (level : Byte) : Int :=
  if b then (if level.toNat + 2 ≤ 127 then 2 else 0)
  else (if 2 ≤ level.toNat then -2 else 0)

/-- The level `ApplyBit(bit)` leaves (R209). -/
def bitLevel (b : Bool) (level : Byte) : Byte :=
  if b then (if level.toNat + 2 ≤ 127 then level + 2 else level)
  else (if 2 ≤ level.toNat then level - 2 else level)

/-- `Complete()` (R210). -/
def dmcComplete (s : State) : State :=
  report (.dmcDone s.dmc.irqEnable) { s with dmc := { s.dmc with active := false, nextCommit := none } }

/-- The byte fetch of R208. -/
def dmcFetch (s : State) : State :=
  { recordFetch s.dmc.cursor s with dmc := { s.dmc with
      shifter := sampleAt s.dmc.cursor s
      cursor := nextCursor s.dmc.cursor
      bytesRem := s.dmc.bytesRem - 1
      bitsRem := 8 } }

/-- The bit of R208: adjust the level, emit, shift, schedule the next tick (R209, R211, R212). -/
def dmcPlayBit (T : Nat) (s : State) : State :=
  let b := s.dmc.shifter.getLsbD 0
  let s1 := emit (bitDelta b s.dmc.level) T { s with dmc := { s.dmc with level := bitLevel b s.dmc.level } }
  { s1 with dmc := { s1.dmc with
      shifter := s1.dmc.shifter >>> 1
      bitsRem := s1.dmc.bitsRem - 1
      nextCommit := some (T + s1.dmc.period) } }

/-- `DmcTick(T)` (R208). -/
def dmcTick (T : Nat) (s : State) : State :=
  if s.dmc.bitsRem ≠ 0 then dmcPlayBit T s
  else if s.dmc.bytesRem ≠ 0 then dmcPlayBit T (dmcFetch s)
  else if s.dmc.loop then dmcPlayBit T (dmcFetch (dmcRestart s))
  else dmcComplete s

/-- The activation half of `DmcEnableWrite` (R205). -/
def dmcActivate (ts : Nat) (s : State) : State :=
  let s1 := dmcRestart s
  { s1 with dmc := { s1.dmc with
      active := true
      nextCommit := match s1.dmc.nextCommit with
        | none => some (ts + s1.dmc.period)
        | some t => some t } }

/-- The disabling half of `DmcEnableWrite` (R205). -/
def dmcDisable (s : State) : State :=
  { s with dmc := { s.dmc with bytesRem := 0, bitsRem := 0, active := false, nextCommit := none } }

/-- `DmcEnableWrite(b, ts)` (R205). -/
def dmcEnableWrite (b : Bool) (ts : Nat) (s : State) : State :=
  if b then (if s.dmc.bytesRem = 0 then dmcActivate ts s else s) else dmcDisable s

end Sys2Proof.Machine
end

