-- ==== Sys2Proof/Machine/Bridge.lean ====
section
/-! DEFINITION. The timestamp domain bridge's wait and rebase (R250 to R254). -/

namespace Sys2Proof.Machine

/-- `lead = (write_cursor - ReadPos()) mod NSLOTS` (R251). -/
def lead (s : State) : Nat := (((s.writeCursor : Int) - (readPosition s : Int)) % (s.cfg.nslots : Int)).toNat

/-- `D = (ts >> 21) << 21` (R252). -/
def rebaseAmount (ts : Nat) : Nat := (ts >>> 21) <<< 21

/-- Move every stored absolute timestamp down by `d` and `offset` up by the same in its own units (R252). -/
def moveTimes (d : Nat) (s : State) : State :=
  { s with
    seq := { s.seq with nextTick := s.seq.nextTick - d }
    tri := { s.tri with updateAt := s.tri.updateAt.map (· - d) }
    dmc := { s.dmc with nextCommit := s.dmc.nextCommit.map (· - d) }
    lastTs := s.lastTs - d
    offset := s.offset + d * s.cfg.scale }

/-- `Rebase(ts)` (R252). -/
def rebase (ts : Nat) (s : State) : State := { moveTimes (rebaseAmount ts) s with eofWait := none }

/-- The hold of `EOF ts`: proceed to the rebase once the lead allows it, else change nothing (R251). -/
def passWait (ts : Nat) (s : State) : State := if lead s ≤ s.cfg.leadSlots then rebase ts s else s

/-- Phase (b) and, where it need not wait, phase (c) (R107, R251; assumption log 7). -/
def enterWait (ts : Nat) (s : State) : State := passWait ts { s with eofWait := some ts }

end Sys2Proof.Machine
end

