-- ==== Sys2Proof/Machine/CatchUp.lean ====
section
/-! DEFINITION. The catch-up (R103) and the templates of the commands (R100, R104). -/

namespace Sys2Proof.Machine

/-- The three scheduled events, in the tie-break order of R103. -/
inductive Due where
  | seqTick | triExpiry | dmcTick
deriving DecidableEq, Repr

/-- Every scheduled event with its time; `INF` is none (R103, R23). -/
def schedule (s : State) : List (Nat × Due) :=
  (s.seq.nextTick, Due.seqTick) ::
    ((s.tri.updateAt.toList.map fun t => (t, Due.triExpiry)) ++
      (s.dmc.nextCommit.toList.map fun t => (t, Due.dmcTick)))

/-- The least event by time, the earlier listed on a tie (R103). -/
def earliest : List (Nat × Due) → Option (Nat × Due)
  | [] => none
  | x :: rest =>
    match earliest rest with
    | none => some x
    | some y => if y.1 < x.1 then some y else some x

/-- The event R103's loop runs next, if one is due at or before `ts`. -/
def nextDue (ts : Nat) (s : State) : Option (Nat × Due) :=
  earliest ((schedule s).filter fun e => decide (e.1 ≤ ts))

/-- Run one event at its own time (R103). -/
def runDue (T : Nat) (who : Due) (s : State) : State :=
  match who with
  | .seqTick => andThen (tick T s) (scheduleTick T)
  | .triExpiry => triExpire T s
  | .dmcTick => dmcTick T s

/-- R103's loop, at most `fuel` times; a fault ends it (R260). -/
def catchUpLoop (ts : Nat) : Nat → State → State
  | 0, s => s
  | fuel + 1, s =>
    match nextDue ts s with
    | none => s
    | some (T, who) => andThen (runDue T who s) (catchUpLoop ts fuel)

/-- How far a timer lies at or before `ts`. -/
def timeLeft (ts : Nat) : Option Nat → Nat
  | none => 0
  | some t => ts + 1 - t

/-- A bound on the number of events due: each arm of R103 moves its own time forward by at least 1 or disarms it
(assumption log 11). -/
def catchUpFuel (ts : Nat) (s : State) : Nat :=
  (ts + 1 - s.seq.nextTick) + s.tri.updateAt.toList.length + timeLeft ts s.dmc.nextCommit

/-- `CatchUp(ts)` (R103). -/
def catchUp (ts : Nat) (s : State) : State := catchUpLoop ts (catchUpFuel ts s) s

/-- The opening of every command: `CheckTime(ts)`, `CatchUp(ts)` (R100). -/
def arrive (ts : Nat) (s : State) : State := andThen (andThen s (checkTime ts)) (catchUp ts)

/-- The template of `WRITE` (R104): the port's effect after the catch-up, `Sync(ts)` after the effect, the control
bits after the `Sync`. -/
def writeCommand (i : Instr) (effect : State → State) (stage : Byte) (s : State) : Host.Outcome State Fault Refusal :=
  validated i
    (fun s => andThen (andThen (andThen (arrive i.ts s) effect) (sync i.ts)) (stageCtrl stage)) s

end Sys2Proof.Machine
end

