-- ==== Sys2Proof/Machine/Commands.lean ====
section
/-! DEFINITION. `RD_STATUS` (R105), `FORCE` (R106), `EOF` (R107): meanings. -/

namespace Sys2Proof.Machine

/-- The status read's own effect: report the byte it returns, clear the frame flag (R105, R170). -/
def statusRead (s : State) : State := report (.status (statusByte s)) (clearFrameFlag s)

/-- `RD_STATUS` (R105): no `Sync`. -/
def execRdStatus (ts : Nat) (s : State) : Host.Outcome State Fault Refusal :=
  validated (.rdStatus ts) (fun s => andThen (arrive ts s) statusRead) s

/-- `FORCE` (R106). -/
def execForce (ts : Nat) (s : State) : Host.Outcome State Fault Refusal :=
  validated (.force ts) (fun s => andThen (arrive ts s) (sync ts)) s

/-- `EOF` (R107): flush, then the wait and, once the lead allows it, the rebase. -/
def execEof (ts : Nat) (s : State) : Host.Outcome State Fault Refusal :=
  validated (.eof ts) (fun s => andThen (andThen (arrive ts s) (sync ts)) (enterWait ts)) s

end Sys2Proof.Machine
end

