-- ==== Sys2Proof/Machine/ControlPorts.lean ====
section
/-! DEFINITION. The shared enable register (R168), the sequencer-control register (R185) and the four ports without a
behaviour (R108): effects and meanings. -/

namespace Sys2Proof.Machine

/-- One channel's part of `CH_ENABLE` (R168). -/
def enableChannel (ch : Chan) (v : Byte) (s : State) : State :=
  { s with
    lenEnable := s.lenEnable.set ch (enableBit v ch)
    length := if enableBit v ch then s.length else s.length.set ch 0 }

/-- The triangle's delay is armed by a write with its bit 0 (R168). -/
def enableTriDelay (ts : Nat) (v : Byte) (s : State) : State :=
  if enableBit v .tri then s else armTriDelay ts s

/-- `CH_ENABLE` (R168, R205). -/
def channelEnable (ts : Nat) (v : Byte) (s : State) : State :=
  dmcEnableWrite (enableDmc v) ts
    (enableChannel .noise v (enableTriDelay ts v
      (enableChannel .tri v (enableChannel .pulse1 v (enableChannel .pulse0 v s)))))

/-- `SEQ_CTRL` before its immediate tick (R185). -/
def seqConfigure (v : Byte) (s : State) : State :=
  { s with seq := { s.seq with
      step := 0
      mode := seqModeOf (seqModeBit v)
      irqInhibit := seqInhibit v
      frameIrq := if seqInhibit v then false else s.seq.frameIrq
      stepP2 := stepP2Of s.cfg (seqModeOf (seqModeBit v)) } }

/-- Resetting the step divider: `half <- 0`, the next natural tick one step after the write (R185). -/
def seqRestart (ts : Nat) (s : State) : State :=
  scheduleTick ts { s with seq := { s.seq with half := false } }

/-- `SEQ_CTRL` (R185). -/
def seqControl (ts : Nat) (v : Byte) (s : State) : State :=
  let s1 := seqConfigure v s
  andThen (if seqModeBit v then tick ts s1 else s1) (seqRestart ts)

/-- `CH_ENABLE` (R168). -/
def execChEnable (ts v : Nat) (s : State) : Host.Outcome State Fault Refusal :=
  writeCommand (.chEnable ts v) (channelEnable ts (dataByte v)) 0 s

/-- `SEQ_CTRL` (R185). -/
def execSeqCtrl (ts v : Nat) (s : State) : Host.Outcome State Fault Refusal :=
  writeCommand (.seqCtrl ts v) (seqControl ts (dataByte v)) 0 s

/-- The effect of a port without a behaviour (R108). -/
def noEffect (s : State) : State := s

/-- `NOP09` (R108). -/
def execNop09 (ts v : Nat) (s : State) : Host.Outcome State Fault Refusal :=
  writeCommand (.nop09 ts v) noEffect 0 s

/-- `NOP0D` (R108). -/
def execNop0D (ts v : Nat) (s : State) : Host.Outcome State Fault Refusal :=
  writeCommand (.nop0D ts v) noEffect 0 s

/-- `NOP14` (R108). -/
def execNop14 (ts v : Nat) (s : State) : Host.Outcome State Fault Refusal :=
  writeCommand (.nop14 ts v) noEffect 0 s

/-- `NOP16` (R108). -/
def execNop16 (ts v : Nat) (s : State) : Host.Outcome State Fault Refusal :=
  writeCommand (.nop16 ts v) noEffect 0 s

end Sys2Proof.Machine
end

