-- ==== Sys2Proof/Machine/DmcPorts.lean ====
section
/-! DEFINITION. The delta-modulation ports (R201 to R204): effects and meanings. -/

namespace Sys2Proof.Machine

/-- `DMC_CTRL` (R201). -/
def dmcControl (v : Byte) (s : State) : State :=
  { s with dmc := { s.dmc with
      irqEnable := dmcIrqEnable v
      loop := dmcLoop v
      rate := dmcRateIndex v
      period := rateEntry s.cfg (dmcRateIndex v) } }

/-- `DMC_LEVEL` (R202). -/
def dmcDirect (ts : Nat) (v : Byte) (s : State) : State :=
  let new := v &&& s.cfg.dmcDirectMask
  emit ((new.toNat : Int) - s.dmc.level.toNat) ts { s with dmc := { s.dmc with level := new } }

/-- `DMC_ADDR` (R203). -/
def dmcStart (v : Byte) (s : State) : State := { s with dmc := { s.dmc with start := v } }

/-- `DMC_LEN` (R204). -/
def dmcLength (v : Byte) (s : State) : State := { s with dmc := { s.dmc with len := v } }

/-- `DMC_CTRL` (R201). -/
def execDmcCtrl (ts v : Nat) (s : State) : Host.Outcome State Fault Refusal :=
  writeCommand (.dmcCtrl ts v) (dmcControl (dataByte v)) 0 s

/-- `DMC_LEVEL` (R202). -/
def execDmcLevel (ts v : Nat) (s : State) : Host.Outcome State Fault Refusal :=
  writeCommand (.dmcLevel ts v) (dmcDirect ts (dataByte v)) 0 s

/-- `DMC_ADDR` (R203). -/
def execDmcAddr (ts v : Nat) (s : State) : Host.Outcome State Fault Refusal :=
  writeCommand (.dmcAddr ts v) (dmcStart (dataByte v)) 0 s

/-- `DMC_LEN` (R204). -/
def execDmcLen (ts v : Nat) (s : State) : Host.Outcome State Fault Refusal :=
  writeCommand (.dmcLen ts v) (dmcLength (dataByte v)) 0 s

end Sys2Proof.Machine
end

