-- ==== Sys2Proof/Machine/PulsePorts.lean ====
section
/-! DEFINITION. The pulse ports (R120 to R128): effects and meanings. -/

namespace Sys2Proof.Machine

/-- Where `SetDuty(p, d)` writes in word 3 (R121). -/
def dutyAt : PulseIx → Nat
  | .pulse0 => 9
  | .pulse1 => 11

/-- `SetDuty(p, d)` (R121). -/
def setDuty (p : PulseIx) (d : BitVec 2) (s : State) : State :=
  { s with cache := s.cache.set .noise (setField s.cache.noise (dutyAt p) d) }

/-- An envelope after its control byte: three fields set, the others kept (R120, R155). -/
def envelopeWritten (v : Byte) (e : Envelope) : Envelope :=
  { e with period := ctrlPeriod v, constant := ctrlConstant v, loop := ctrlLoop v }

/-- The envelope's part of a control-byte write (R120, R155). -/
def controlEnvelope (e : EnvIx) (v : Byte) (s : State) : State :=
  { s with env := s.env.set e (envelopeWritten v (s.env.get e)) }

/-- `P<p>_CTRL` (R120). -/
def pulseCtrl (p : PulseIx) (v : Byte) (s : State) : State :=
  refreshVolume p.env (setDuty p (ctrlDuty v) (controlEnvelope p.env v s))

/-- A sweep after its register's byte: four fields and the reload flag set, the divider kept (R124). -/
def sweepWritten (v : Byte) (sw : Sweep) : Sweep :=
  { sw with
    enabled := sweepEnabled v
    period := sweepPeriod v
    negate := sweepNegate v
    shift := sweepShift v
    reload := true }

/-- `P<p>_SWEEP` (R124). -/
def pulseSweep (p : PulseIx) (v : Byte) (s : State) : State :=
  { s with sweep := s.sweep.set p (sweepWritten v (s.sweep.get p)) }

/-- `P<p>_LO` (R125): period bits 7..0 are word bits 11..4. -/
def pulseLow (p : PulseIx) (v : Byte) (s : State) : State :=
  { s with cache := s.cache.set p.chan (setField (s.cache.get p.chan) 4 v) }

/-- `env[e].reload <- 1` (R128, R157). -/
def armReload (e : EnvIx) (s : State) : State :=
  { s with env := s.env.set e { s.env.get e with reload := true } }

/-- `P<p>_HI` (R128): period bits 10..8 are word bits 14..12; the phase-reset bit is `phaseReset p`. -/
def pulseHigh (p : PulseIx) (v : Byte) (s : State) : State :=
  armReload p.env (loadLength p.chan v
    { s with cache := s.cache.set p.chan (setField (s.cache.get p.chan) 12 (periodHigh v)) })

/-- `1 << p`, staged after the `Sync` (R128, R232). -/
def phaseReset : PulseIx → Byte
  | .pulse0 => 1
  | .pulse1 => 2

/-- `P0_CTRL` (R120). -/
def execP0Ctrl (ts v : Nat) (s : State) : Host.Outcome State Fault Refusal :=
  writeCommand (.p0Ctrl ts v) (pulseCtrl .pulse0 (dataByte v)) 0 s

/-- `P0_SWEEP` (R124). -/
def execP0Sweep (ts v : Nat) (s : State) : Host.Outcome State Fault Refusal :=
  writeCommand (.p0Sweep ts v) (pulseSweep .pulse0 (dataByte v)) 0 s

/-- `P0_LO` (R125). -/
def execP0Lo (ts v : Nat) (s : State) : Host.Outcome State Fault Refusal :=
  writeCommand (.p0Lo ts v) (pulseLow .pulse0 (dataByte v)) 0 s

/-- `P0_HI` (R128). -/
def execP0Hi (ts v : Nat) (s : State) : Host.Outcome State Fault Refusal :=
  writeCommand (.p0Hi ts v) (pulseHigh .pulse0 (dataByte v)) (phaseReset .pulse0) s

/-- `P1_CTRL` (R120). -/
def execP1Ctrl (ts v : Nat) (s : State) : Host.Outcome State Fault Refusal :=
  writeCommand (.p1Ctrl ts v) (pulseCtrl .pulse1 (dataByte v)) 0 s

/-- `P1_SWEEP` (R124). -/
def execP1Sweep (ts v : Nat) (s : State) : Host.Outcome State Fault Refusal :=
  writeCommand (.p1Sweep ts v) (pulseSweep .pulse1 (dataByte v)) 0 s

/-- `P1_LO` (R125). -/
def execP1Lo (ts v : Nat) (s : State) : Host.Outcome State Fault Refusal :=
  writeCommand (.p1Lo ts v) (pulseLow .pulse1 (dataByte v)) 0 s

/-- `P1_HI` (R128). -/
def execP1Hi (ts v : Nat) (s : State) : Host.Outcome State Fault Refusal :=
  writeCommand (.p1Hi ts v) (pulseHigh .pulse1 (dataByte v)) (phaseReset .pulse1) s

end Sys2Proof.Machine
end

