-- ==== Sys2Proof/Machine/NoisePorts.lean ====
section
/-! DEFINITION. The noise ports (R155 to R158): effects and meanings. -/

namespace Sys2Proof.Machine

/-- `NOI_CTRL` (R155): R120 without the duty bits. -/
def noiseCtrl (v : Byte) (s : State) : State := refreshVolume .noise (controlEnvelope .noise v s)

/-- `PRNG_ADVANCE` of a configuration (R7, R158). -/
def prngNext (c : Cfg) (x : PrngState) : PrngState :=
  match c.prngAdvance with
  | .successor => x + 1
  | .free n => Config.prngAdvance n x

/-- The generator after a write of the mode bit: advanced on a 0 to 1 edge only (R156, R158). -/
def noiseStepped (c : Cfg) (n : Noise) (m : Bool) : Noise :=
  { mode := m, prng := if n.mode = false ∧ m = true then prngNext c n.prng else n.prng }

/-- `NOI_MODE` (R156). -/
def noiseModeWrite (v : Byte) (s : State) : State :=
  { s with
    noise := noiseStepped s.cfg s.noise (noiseMode v)
    cache := s.cache.set .noise
      (setField (setField s.cache.noise 8 (bit (noiseMode v))) 4 (noiseFrequency v)) }

/-- `NOI_LEN` (R157). -/
def noiseLength (v : Byte) (s : State) : State := armReload .noise (loadLength .noise v s)

/-- `NOI_CTRL` (R155). -/
def execNoiCtrl (ts v : Nat) (s : State) : Host.Outcome State Fault Refusal :=
  writeCommand (.noiCtrl ts v) (noiseCtrl (dataByte v)) 0 s

/-- `NOI_MODE` (R156). -/
def execNoiMode (ts v : Nat) (s : State) : Host.Outcome State Fault Refusal :=
  writeCommand (.noiMode ts v) (noiseModeWrite (dataByte v)) 0 s

/-- `NOI_LEN` (R157). -/
def execNoiLen (ts v : Nat) (s : State) : Host.Outcome State Fault Refusal :=
  writeCommand (.noiLen ts v) (noiseLength (dataByte v)) 0 s

end Sys2Proof.Machine
end

