-- ==== Sys2Proof/Machine/TrianglePorts.lean ====
section
/-! DEFINITION. The triangle ports (R140 to R142): effects and meanings. -/

namespace Sys2Proof.Machine

/-- `TRI_CTRL` (R140). -/
def triControl (v : Byte) (s : State) : State := { s with tri := { s.tri with control := v } }

/-- `TRI_LO` (R141): period bits 7..0, bits 10..8 kept. -/
def triLow (ts : Nat) (v : Byte) (s : State) : State :=
  armTriDelay ts { s with tri := { s.tri with period := s.tri.period.extractLsb' 8 3 ++ v } }

/-- `TRI_HI` (R142): period bits 10..8, bits 7..0 kept. -/
def triHigh (ts : Nat) (v : Byte) (s : State) : State :=
  let s1 := loadLength .tri v
    { s with tri := { s.tri with period := periodHigh v ++ s.tri.period.extractLsb' 0 8 } }
  armTriDelay ts { s1 with tri := { s1.tri with linearReload := true } }

/-- `TRI_CTRL` (R140). -/
def execTriCtrl (ts v : Nat) (s : State) : Host.Outcome State Fault Refusal :=
  writeCommand (.triCtrl ts v) (triControl (dataByte v)) 0 s

/-- `TRI_LO` (R141). -/
def execTriLo (ts v : Nat) (s : State) : Host.Outcome State Fault Refusal :=
  writeCommand (.triLo ts v) (triLow ts (dataByte v)) 0 s

/-- `TRI_HI` (R142). -/
def execTriHi (ts v : Nat) (s : State) : Host.Outcome State Fault Refusal :=
  writeCommand (.triHi ts v) (triHigh ts (dataByte v)) 0 s

end Sys2Proof.Machine
end

