-- ==== Sys2Proof/Machine/Dispatch.lean ====
section
/-! DEFINITION. One arm per command (R80, R82). -/

namespace Sys2Proof.Machine

def exec (i : Instr) (s : State) : Host.Outcome State Fault Refusal :=
  match i with
  | .p0Ctrl ts v => Sys2Proof.Machine.execP0Ctrl ts v s
  | .p0Sweep ts v => Sys2Proof.Machine.execP0Sweep ts v s
  | .p0Lo ts v => Sys2Proof.Machine.execP0Lo ts v s
  | .p0Hi ts v => Sys2Proof.Machine.execP0Hi ts v s
  | .p1Ctrl ts v => Sys2Proof.Machine.execP1Ctrl ts v s
  | .p1Sweep ts v => Sys2Proof.Machine.execP1Sweep ts v s
  | .p1Lo ts v => Sys2Proof.Machine.execP1Lo ts v s
  | .p1Hi ts v => Sys2Proof.Machine.execP1Hi ts v s
  | .triCtrl ts v => Sys2Proof.Machine.execTriCtrl ts v s
  | .nop09 ts v => Sys2Proof.Machine.execNop09 ts v s
  | .triLo ts v => Sys2Proof.Machine.execTriLo ts v s
  | .triHi ts v => Sys2Proof.Machine.execTriHi ts v s
  | .noiCtrl ts v => Sys2Proof.Machine.execNoiCtrl ts v s
  | .nop0D ts v => Sys2Proof.Machine.execNop0D ts v s
  | .noiMode ts v => Sys2Proof.Machine.execNoiMode ts v s
  | .noiLen ts v => Sys2Proof.Machine.execNoiLen ts v s
  | .dmcCtrl ts v => Sys2Proof.Machine.execDmcCtrl ts v s
  | .dmcLevel ts v => Sys2Proof.Machine.execDmcLevel ts v s
  | .dmcAddr ts v => Sys2Proof.Machine.execDmcAddr ts v s
  | .dmcLen ts v => Sys2Proof.Machine.execDmcLen ts v s
  | .nop14 ts v => Sys2Proof.Machine.execNop14 ts v s
  | .chEnable ts v => Sys2Proof.Machine.execChEnable ts v s
  | .nop16 ts v => Sys2Proof.Machine.execNop16 ts v s
  | .seqCtrl ts v => Sys2Proof.Machine.execSeqCtrl ts v s
  | .rdStatus ts => Sys2Proof.Machine.execRdStatus ts s
  | .force ts => Sys2Proof.Machine.execForce ts s
  | .eof ts => Sys2Proof.Machine.execEof ts s

end Sys2Proof.Machine
end

