-- ==== Sys2Proof/Machine/Step.lean ====
section
/-! DEFINITION. One step: the turn's agent acts (R6, R70, R100). -/

namespace Sys2Proof.Machine

/-- A consumer turn advances the consumer (R70).  An engine turn stops on a standing fault (R260), resumes or keeps a
held `EOF` (R251), idles where no command is presented (R109), or takes the next command (R100): an invalid word is
refused (R261), any other is executed with the word taken off the stream. -/
def step (s : State) : Host.Outcome State Fault Refusal :=
  match takeTurn s with
  | (.consumer, s1) => .next (consumerAdvance s1)
  | (.engine, s1) =>
    match engineWork s1 with
    | .faulted f => .fault f
    | .held ts => .next (passWait ts s1)
    | .idle => .next s1
    | .command w =>
      match decode w with
      | .error why => .refused (.invalidWord w why)
      | .ok i => exec i (takeCommand s1)

/-- `s` about to take the command whose transport bits are `w`: the word first in the stream, the engine's turn next,
no fault and no held `EOF` in its way (R100; assumption log 6). -/
def State.withFetchWord (s : State) (nbits w : Nat) : State :=
  { s with
    cmds := tableWord nbits w :: s.cmds
    turns := .engine :: s.turns
    fault := none
    eofWait := none }

end Sys2Proof.Machine
end

