-- ==== Sys2Proof/Safety.lean ====
section
/-! DEFINITION. The terms claims are stated in: when a command is taken and served (R100 to R103), what `Sync` leaves
(R226), the invariants of R39 and R40, retiming a command (R253). -/

namespace Sys2Proof.Machine

/-! ### When a command runs -/

/-- R100 to R102: the operands are in range, no fault and no held `EOF` stands, the timestamp does not go back. -/
structure Ready (i : Instr) (s : State) : Prop where
  wf : i.wf = true
  noFault : s.fault = none
  noWait : s.eofWait = none
  inTime : s.lastTs ≤ i.ts

/-- A ready command whose catch-up raises no fault and whose own `Sync` meets R226 step 1.  `TimelyCommandIsServed`
states that every ready command in a timely state is served. -/
structure Served (i : Instr) (s : State) : Prop extends Ready i s where
  caughtUp : (arrive i.ts s).fault = none
  inOrder : (arrive i.ts s).pendingSample ≤ sampleIndex i.ts (arrive i.ts s)

/-- No scheduled event is due at or before `ts` (R103: `due` is empty). -/
structure NoneDue (ts : Nat) (s : State) : Prop where
  tick : ts < s.seq.nextTick
  tri : ∀ t, s.tri.updateAt = some t → ts < t
  dmc : ∀ t, s.dmc.nextCommit = some t → ts < t

/-- R109: the stream is exhausted, no hold, no fault. -/
def runOver (s : State) : Prop := s.cmds = [] ∧ s.eofWait = none ∧ s.fault = none

/-! ### What a `Sync` leaves -/

/-- `c` with the FIFO side of `t`: Pending, control byte, Pending index, cursor, slots, events.  An equation
`t = { withFifo c t with … }` says that nothing but the FIFO side and the named fields differs from `c`. -/
def withFifo (c t : State) : State :=
  { c with
    pending := t.pending
    pendingCtrl := t.pendingCtrl
    pendingSample := t.pendingSample
    writeCursor := t.writeCursor
    slots := t.slots
    events := t.events }

/-- The event of the flush a `Sync(ts)` in `c` makes, if it makes one (R226 step 2). -/
def flushEvents (ts : Nat) (c : State) : List Event :=
  if sampleIndex ts c = c.pendingSample then [] else [.slot c.writeCursor (pendingSlot c)]

/-- `t`'s FIFO side is what `Sync(ts)` leaves of `c`'s, with the control bits `bits` staged after it; `pre` are the
events reported before the flush (R226, R227, R232). -/
structure Synced (ts : Nat) (bits : Byte) (pre : List Event) (c t : State) : Prop where
  index : t.pendingSample = sampleIndex ts c
  words : t.pending = staged t
  events : t.events = c.events ++ pre ++ flushEvents ts c
  kept : sampleIndex ts c = c.pendingSample →
    t.pendingCtrl = c.pendingCtrl ||| bits ∧ t.writeCursor = c.writeCursor ∧ ∀ k, slotAt k t = slotAt k c
  flushed : sampleIndex ts c ≠ c.pendingSample →
    t.pendingCtrl = bits ∧ t.writeCursor = (c.writeCursor + 1) % c.cfg.nslots ∧
    slotAt c.writeCursor t = some (pendingSlot c) ∧ ∀ k, k ≠ c.writeCursor → slotAt k t = slotAt k c

/-! ### Invariants (R39, R40) -/

/-- The configuration meets R7, and the two stored values are the tables' (R31, R201). -/
structure Configured (s : State) : Prop where
  cfg : s.cfg.Ok
  stepP2 : s.seq.stepP2 = stepP2Of s.cfg s.seq.mode
  period : s.dmc.period = rateEntry s.cfg s.dmc.rate

/-- The schedule lies after the last command, the staged indices do not lie after it, a held `EOF` holds at the last
timestamp, and the model's self-check has not fired (R39 (a), R40, R264). -/
structure Timely (s : State) : Prop where
  noneDue : NoneDue s.lastTs s
  pending : s.pendingSample ≤ sampleIndex s.lastTs s
  staged : s.dmc.stagedSample ≤ sampleIndex s.lastTs s
  wait : ∀ t, s.eofWait = some t → t = s.lastTs
  sane : ∀ a b, s.fault ≠ some (.sampleIndexRegression a b)

/-- The three sparse stores are in canonical form and the two cursors are cursors (R40, R63, R68). -/
structure Canonical (s : State) : Prop where
  mem : s.mem.wf
  slots : s.slots.wf
  slotsInside : ∀ e ∈ s.slots, e.1 < s.cfg.nslots
  deltas : s.deltas.wf
  writeCursor : s.writeCursor < s.cfg.nslots
  readPos : s.readPos < s.cfg.nslots

/-- A pulse word: bit 15 zero (R98). -/
abbrev pulseWordOk (w : Word16) : Prop := w.getLsbD 15 = false

/-- A triangle word: bits 3..0 and 15 zero (R98). -/
abbrev triWordOk (w : Word16) : Prop := field w 0 4 = 0 ∧ w.getLsbD 15 = false

/-- Word 3: bits 15..13 zero (R98). -/
abbrev noiseWordOk (w : Word16) : Prop := field w 13 3 = 0

/-- A control byte: bits 6..2 zero; bit 7 is not spoken of (R98, U6). -/
abbrev ctrlOk (b : Byte) : Prop := b.extractLsb' 2 5 = 0

/-- Four words in their formats (R98). -/
structure WordsOk (w : PerChan Word16) : Prop where
  pulse0 : pulseWordOk w.pulse0
  pulse1 : pulseWordOk w.pulse1
  tri : triWordOk w.tri
  noise : noiseWordOk w.noise

/-- Every word and control byte held or written is in its format (R98, R40), and the volume nibbles follow the
envelopes (R122). -/
structure Formatted (s : State) : Prop where
  cache : WordsOk s.cache
  pending : WordsOk s.pending
  pendingCtrl : ctrlOk s.pendingCtrl
  slots : ∀ e ∈ s.slots, WordsOk ⟨e.2.w0, e.2.w1, e.2.w2, e.2.w3⟩ ∧ ctrlOk e.2.ctrl
  volumes : ∀ e : EnvIx, field (s.cache.get e.chan) 0 4 = volume (s.env.get e)

/-- The player's registers stay in their ranges (R30, R40, R213). -/
structure PlayerBounded (s : State) : Prop where
  bits : s.dmc.bitsRem ≤ 8
  bytes : s.dmc.bytesRem ≤ 4081
  cursor : 0 < s.dmc.bytesRem → s.dmc.cursor.getLsbD 15 = true
  parked : s.dmc.active = false → s.dmc.nextCommit = none
  level : s.cfg.dmcDirectMask = 0x7F → s.dmc.level.toNat ≤ 127

/-- The tags of the slot writes reported so far, oldest first. -/
def slotTags : List Event → List Nat
  | [] => []
  | .slot _ r :: rest => r.sample :: slotTags rest
  | .delta _ _ :: rest => slotTags rest
  | .fetch _ _ :: rest => slotTags rest
  | .dmcDone _ :: rest => slotTags rest
  | .status _ :: rest => slotTags rest

/-- R39 (b), R234 (b): tags strictly increase, and the staged index lies after all of them. -/
structure TagsRising (s : State) : Prop where
  rising : (slotTags s.events).Pairwise (· < ·)
  ahead : ∀ t ∈ slotTags s.events, t < s.pendingSample

/-! ### Families of commands -/

/-- `P0_CTRL`, `P1_CTRL`. -/
def pulseCtrlOf : PulseIx → Nat → Nat → Instr
  | .pulse0 => .p0Ctrl
  | .pulse1 => .p1Ctrl

/-- `P0_SWEEP`, `P1_SWEEP`. -/
def pulseSweepOf : PulseIx → Nat → Nat → Instr
  | .pulse0 => .p0Sweep
  | .pulse1 => .p1Sweep

/-- `P0_LO`, `P1_LO`. -/
def pulseLowOf : PulseIx → Nat → Nat → Instr
  | .pulse0 => .p0Lo
  | .pulse1 => .p1Lo

/-- `P0_HI`, `P1_HI`. -/
def pulseHighOf : PulseIx → Nat → Nat → Instr
  | .pulse0 => .p0Hi
  | .pulse1 => .p1Hi

/-- The four ports without a behaviour (R97 (a)). -/
def nopInstrs (ts v : Nat) : List Instr := [.nop09 ts v, .nop0D ts v, .nop14 ts v, .nop16 ts v]

/-! ### Retiming (R253) and the generator (R158) -/

/-- The same command at another timestamp. -/
def retime (t : Nat) : Instr → Instr
  | .p0Ctrl _ v => .p0Ctrl t v
  | .p0Sweep _ v => .p0Sweep t v
  | .p0Lo _ v => .p0Lo t v
  | .p0Hi _ v => .p0Hi t v
  | .p1Ctrl _ v => .p1Ctrl t v
  | .p1Sweep _ v => .p1Sweep t v
  | .p1Lo _ v => .p1Lo t v
  | .p1Hi _ v => .p1Hi t v
  | .triCtrl _ v => .triCtrl t v
  | .nop09 _ v => .nop09 t v
  | .triLo _ v => .triLo t v
  | .triHi _ v => .triHi t v
  | .noiCtrl _ v => .noiCtrl t v
  | .nop0D _ v => .nop0D t v
  | .noiMode _ v => .noiMode t v
  | .noiLen _ v => .noiLen t v
  | .dmcCtrl _ v => .dmcCtrl t v
  | .dmcLevel _ v => .dmcLevel t v
  | .dmcAddr _ v => .dmcAddr t v
  | .dmcLen _ v => .dmcLen t v
  | .nop14 _ v => .nop14 t v
  | .chEnable _ v => .chEnable t v
  | .nop16 _ v => .nop16 t v
  | .seqCtrl _ v => .seqCtrl t v
  | .rdStatus _ => .rdStatus t
  | .force _ => .force t
  | .eof _ => .eof t

/-- No stored time lies before `d` (R252: "no subtraction goes below zero"). -/
structure TimesFrom (d : Nat) (s : State) : Prop where
  last : d ≤ s.lastTs
  tick : d ≤ s.seq.nextTick
  tri : ∀ t, s.tri.updateAt = some t → d ≤ t
  dmc : ∀ t, s.dmc.nextCommit = some t → d ≤ t

/-- The state with another generator value. -/
def withPrng (x : PrngState) (s : State) : State := { s with noise := { s.noise with prng := x } }

end Sys2Proof.Machine
end

