-- ==== Sys2Proof/Certificates/Slice0/Obligations.lean ====
section
/-! DEFINITION. The statements for the provers, one `def Obligations.<Name> : Prop` each; OBLIGATIONS.json lists them.
In a statement about a command, `c` is the state after the command's opening (`CheckTime`, `CatchUp`: `arrive`), and an
equation `t = { withFifo c t with … }` is the frame: nothing but the FIFO side and the named fields differs from `c`. -/

open Sys2Proof Sys2Proof.Machine

/-! ### Encoding (R80 to R82, R97) -/

/-- R81, 95_test_vectors.md section 2.1: `decode(encode(c)) = c` for every command in range.
Rests on the spec's own decisions D1, D38 (assumption log 19). -/
def Obligations.DecodeOfEncodeGivesTheCommand : Prop :=
  ∀ i : Instr, i.wf = true → decode (encode i) = .ok i

/-- R81, 95_test_vectors.md section 2.1: `encode(decode(w)) = w` for every valid word, and what decodes is in range.
Rests on the spec's own decisions D1, D38 (assumption log 19). -/
def Obligations.EncodeOfDecodeGivesTheWord : Prop :=
  ∀ (w : CommandWord) (i : Instr), decode w = .ok i → encode i = w ∧ i.wf = true

/-- R81: "a word matches a row exactly when it is valid"; the row matched is the command's own and the only one.
Rests on the spec's own decisions D1, D35, D38 (assumption log 19). -/
def Obligations.DecoderAcceptsExactlyTheTableRows : Prop :=
  ∀ w : CommandWord,
    ((∃ i, decode w = .ok i) ↔ ∃ r ∈ opcodeRows, w &&& r.mask = r.pattern) ∧
    ∀ i, decode w = .ok i → ∀ r ∈ opcodeRows, w &&& r.mask = r.pattern → r = i.row

/-- Words written out from R81 and R82 (95_test_vectors.md section 2.1), valid and invalid.
Rests on the spec's own decisions D1, D38 (assumption log 19). -/
def Obligations.DecoderReadsTheSpecsWords : Prop :=
  decode 0x000003080000000A = .ok (.p0Hi 10 0x08) ∧
  decode 0x00001700FFFFFFFF = .ok (.seqCtrl 4294967295 0) ∧
  decode 0x0000058A00000005 = .ok (.p1Sweep 5 0x8A) ∧
  decode 0x40000000000003E9 = .ok (.rdStatus 1001) ∧
  decode 0x8000000000000029 = .ok (.force 41) ∧
  decode 0xC000000000200008 = .ok (.eof 2097160) ∧
  decode 0x0000180000000000 = .error (.noSuchPort 0x18) ∧
  decode 0x0100000000000000 = .error .zeroFieldSet ∧
  decode 0x4000000100000000 = .error .bareFieldsSet

/-! ### One step (R6, R70, R100, R260, R261) -/

/-- R100: on the engine's turn, with no fault and no hold, `step` is `exec` of the decoded command, taken off the
stream; and the very next step after `withFetchWord` runs its word, in every state (assumption log 6). -/
def Obligations.StepRunsTheDecodedCommand : Prop :=
  (∀ (s : State) (w : CommandWord) (rest : List CommandWord) (i : Instr),
    s.turns.head? ≠ some .consumer → s.fault = none → s.eofWait = none → s.cmds = w :: rest → decode w = .ok i →
    step s = exec i { s with turns := s.turns.tail, cmds := rest }) ∧
  ∀ (s : State) (w : Nat) (i : Instr), decodeTableWord 64 w = some i →
    step (s.withFetchWord 64 w) = exec i { s with fault := none, eofWait := none }

/-- The other turns: the consumer's (R70); the engine's at a standing fault, at a held `EOF` (R251), at an exhausted
stream (R109), at an invalid word (R261).  The model's choices, no rule's: that a consumer turn at which
`ConsumerAdvance` is not enabled changes only the schedule (assumption log 5), that the engine's next turn answers the
recorded fault (assumption log 4, on R260), that a held `EOF` is tested at each engine turn (assumption log 7), that an
engine with nothing presented idles (assumption log 6).
Rests on the spec's own decisions D8, D35, D36, D39, D47 (assumption log 19). -/
def Obligations.StepOfTheOtherTurns : Prop :=
  ∀ s : State,
    (∀ rest, s.turns = .consumer :: rest →
      step s = .next (if s.readPos = s.writeCursor then { s with turns := rest }
        else { s with turns := rest, readPos := (s.readPos + 1) % s.cfg.nslots })) ∧
    (s.turns.head? ≠ some .consumer →
      (∀ f, s.fault = some f → step s = .fault f) ∧
      (∀ ts, s.fault = none → s.eofWait = some ts → s.cfg.leadSlots < lead s →
        step s = .next { s with turns := s.turns.tail }) ∧
      (∀ ts, s.fault = none → s.eofWait = some ts → lead s ≤ s.cfg.leadSlots → let D := ts / 2 ^ 21 * 2 ^ 21
        step s = .next { s with
          turns := s.turns.tail
          seq := { s.seq with nextTick := s.seq.nextTick - D }
          tri := { s.tri with updateAt := s.tri.updateAt.map (· - D) }
          dmc := { s.dmc with nextCommit := s.dmc.nextCommit.map (· - D) }
          lastTs := s.lastTs - D
          offset := s.offset + D * s.cfg.scale
          eofWait := none }) ∧
      (runOver s → step s = .next { s with turns := s.turns.tail }) ∧
      (∀ w rest why, s.fault = none → s.eofWait = none → s.cmds = w :: rest → decode w = .error why →
        step s = .refused (.invalidWord w why)))

/-- R101, R261: the operands are checked first, and a command outside the interface's types is refused.
Rests on the spec's own decision D35 (assumption log 19). -/
def Obligations.OutOfRangeOperandsAreRefused : Prop :=
  ∀ (i : Instr) (s : State),
    (i.wf = true ↔ i.ts < 2 ^ 32 ∧ ∀ v, i.value = some v → v < 2 ^ 8) ∧
    (i.wf = false → exec i s = .refused (.operandsOutOfRange i))

/-- R102, R262, R269: a timestamp before `last_ts` raises the violation and nothing else happens.  That the outcome is a
next state with the fault recorded, where R260 has the model return the error, is the model's choice (assumption log
4).
Rests on the spec's own decision D36 (assumption log 19). -/
def Obligations.EarlierTimestampRaisesTheViolation : Prop :=
  ∀ (i : Instr) (s : State), i.wf = true → s.fault = none → i.ts < s.lastTs →
    exec i s = .next { s with fault := some (.timingViolation i.ts s.lastTs) }

/-! ### The catch-up (R103, R264) -/

/-- R264, R103: in a timely state every ready command is served: its catch-up raises nothing, leaves nothing due at or
before its timestamp, and its own `Sync` does not go back.
Rests on the spec's own decision D10 (assumption log 19). -/
def Obligations.TimelyCommandIsServed : Prop :=
  ∀ (i : Instr) (s : State), Configured s → Timely s → Ready i s →
    Served i s ∧ NoneDue i.ts (arrive i.ts s) ∧ (arrive i.ts s).lastTs = i.ts

/-- R103: the event run next is due, is the least in time, and on a tie the sequencer comes before the triangle delay
and both before the player.
Rests on the spec's own decision D10 (assumption log 19). -/
def Obligations.CatchUpPicksTheEarliestEvent : Prop :=
  ∀ (ts : Nat) (s : State),
    (nextDue ts s = none ↔ NoneDue ts s) ∧
    (∀ T, nextDue ts s = some (T, .seqTick) ↔
      s.seq.nextTick = T ∧ T ≤ ts ∧ (∀ t, s.tri.updateAt = some t → T ≤ t) ∧ ∀ t, s.dmc.nextCommit = some t → T ≤ t) ∧
    (∀ T, nextDue ts s = some (T, .triExpiry) ↔
      s.tri.updateAt = some T ∧ T ≤ ts ∧ T < s.seq.nextTick ∧ ∀ t, s.dmc.nextCommit = some t → T ≤ t) ∧
    (∀ T, nextDue ts s = some (T, .dmcTick) ↔
      s.dmc.nextCommit = some T ∧ T ≤ ts ∧ T < s.seq.nextTick ∧ ∀ t, s.tri.updateAt = some t → T < t)

/-- R103, R182: what running each of the three events is, the sequencer's being its tick and the schedule of the next
from its own due time; with nothing due a command's opening only moves `last_ts`; where the first due event raises
nothing, catching up is running it and catching up from there.
Rests on the spec's own decisions D10, D13, D22, D28 (assumption log 19). -/
def Obligations.CatchUpRunsEventsInOrder : Prop :=
  (∀ (T : Nat) (s : State),
    runDue T .triExpiry s = triExpire T s ∧ runDue T .dmcTick s = dmcTick T s ∧
    ((tick T s).fault = none → runDue T .seqTick s = { tick T s with seq := { (tick T s).seq with
      nextTick := T + (s.seq.stepP2 + s.seq.half.toNat) / 2, half := !s.seq.half } }) ∧
    ((tick T s).fault ≠ none → runDue T .seqTick s = tick T s)) ∧
  (∀ (ts : Nat) (s : State), s.fault = none → s.lastTs ≤ ts → NoneDue ts s → arrive ts s = { s with lastTs := ts }) ∧
  ∀ (ts T : Nat) (who : Due) (s : State), Configured s → nextDue ts s = some (T, who) →
    (runDue T who s).fault = none →
    catchUp ts s = catchUp ts (runDue T who s) ∧
    (who = .seqTick → (runDue T who s).seq.nextTick = T + (s.seq.stepP2 + s.seq.half.toNat) / 2) ∧
    (who ≠ .seqTick → (runDue T who s).seq = s.seq)

/-- What no catch-up (R103) writes: the configuration, the enables, the generator, the registers only a port write sets,
`offset`, the hold, the pinned sample memory, the read position, the command stream and the schedule.  Slots, deltas and
events are not spoken of: a catch-up writes them.
Rests on the spec's own decision D10 (assumption log 19). -/
def Obligations.CatchUpFrame : Prop :=
  ∀ (ts : Nat) (s : State), let c := arrive ts s
    c.cfg = s.cfg ∧ c.lenEnable = s.lenEnable ∧ c.noise = s.noise ∧ c.offset = s.offset ∧ c.eofWait = s.eofWait ∧
    c.mem = s.mem ∧ c.readPos = s.readPos ∧ c.cmds = s.cmds ∧ c.turns = s.turns ∧
    c.seq.mode = s.seq.mode ∧ c.seq.stepP2 = s.seq.stepP2 ∧ c.seq.irqInhibit = s.seq.irqInhibit ∧
    c.tri.period = s.tri.period ∧ c.tri.control = s.tri.control ∧
    c.dmc.loop = s.dmc.loop ∧ c.dmc.irqEnable = s.dmc.irqEnable ∧ c.dmc.rate = s.dmc.rate ∧
    c.dmc.period = s.dmc.period ∧ c.dmc.start = s.dmc.start ∧ c.dmc.len = s.dmc.len ∧
    (∀ e, (c.env.get e).period = (s.env.get e).period ∧ (c.env.get e).constant = (s.env.get e).constant ∧
      (c.env.get e).loop = (s.env.get e).loop) ∧
    (∀ p, (c.sweep.get p).period = (s.sweep.get p).period ∧ (c.sweep.get p).enabled = (s.sweep.get p).enabled ∧
      (c.sweep.get p).negate = (s.sweep.get p).negate ∧ (c.sweep.get p).shift = (s.sweep.get p).shift)

/-! ### The pulse ports (R120 to R128) -/

/-- R120, R121: the duty/envelope register of either pulse completes; fields, volume nibble, duty bits, frame.
Rests on the spec's own decision D2 (assumption log 19). -/
def Obligations.PulseControlWrite : Prop :=
  ∀ (p : PulseIx) (ts v : Nat) (s : State), Served (pulseCtrlOf p ts v) s →
    let c := arrive ts s
    let b := BitVec.ofNat 8 v
    ∃ t, exec (pulseCtrlOf p ts v) s = .next t ∧
      t = { withFifo c t with env := t.env, cache := t.cache } ∧ Synced ts 0 [] c t ∧
      t.env.get p.env = { c.env.get p.env with
        period := b.extractLsb' 0 4, constant := b.getLsbD 4, loop := b.getLsbD 5 } ∧
      (∀ e, e ≠ p.env → t.env.get e = c.env.get e) ∧
      field (t.cache.get p.chan) 0 4 =
        (if b.getLsbD 4 then b.extractLsb' 0 4 else (c.env.get p.env).level) ∧
      field (t.cache.get p.chan) 4 12 = field (c.cache.get p.chan) 4 12 ∧
      (∀ q : PulseIx, q ≠ p → t.cache.get q.chan = c.cache.get q.chan) ∧ t.cache.tri = c.cache.tri ∧
      (p = .pulse0 → field t.cache.noise 9 2 = b.extractLsb' 6 2 ∧ field t.cache.noise 11 2 = field c.cache.noise 11 2) ∧
      (p = .pulse1 → field t.cache.noise 11 2 = b.extractLsb' 6 2 ∧ field t.cache.noise 9 2 = field c.cache.noise 9 2) ∧
      field t.cache.noise 0 9 = field c.cache.noise 0 9 ∧ field t.cache.noise 13 3 = field c.cache.noise 13 3

/-- R124: the sweep register completes; the divider and the Cache are not written.
Rests on the spec's own decision D2 (assumption log 19). -/
def Obligations.PulseSweepWrite : Prop :=
  ∀ (p : PulseIx) (ts v : Nat) (s : State), Served (pulseSweepOf p ts v) s →
    let c := arrive ts s
    let b := BitVec.ofNat 8 v
    ∃ t, exec (pulseSweepOf p ts v) s = .next t ∧
      t = { withFifo c t with sweep := t.sweep } ∧ Synced ts 0 [] c t ∧
      t.sweep.get p = { period := b.extractLsb' 4 3, divider := (c.sweep.get p).divider, enabled := b.getLsbD 7,
                        negate := b.getLsbD 3, shift := b.extractLsb' 0 3, reload := true } ∧
      ∀ q, q ≠ p → t.sweep.get q = c.sweep.get q

/-- R125: the low period byte completes: period bits 7..0 of the Cache word and nothing else of it. -/
def Obligations.PulseLowByteWrite : Prop :=
  ∀ (p : PulseIx) (ts v : Nat) (s : State), Served (pulseLowOf p ts v) s →
    let c := arrive ts s
    ∃ t, exec (pulseLowOf p ts v) s = .next t ∧
      t = { withFifo c t with cache := t.cache } ∧ Synced ts 0 [] c t ∧
      field (t.cache.get p.chan) 4 8 = BitVec.ofNat 8 v ∧
      field (t.cache.get p.chan) 0 4 = field (c.cache.get p.chan) 0 4 ∧
      field (t.cache.get p.chan) 12 4 = field (c.cache.get p.chan) 12 4 ∧
      ∀ ch, ch ≠ p.chan → t.cache.get ch = c.cache.get ch

/-- R128, R169, R232: the high period byte completes: period bits 10..8, the length load under the enable, the
envelope's reload flag, and the phase-reset bit staged after the `Sync`.
Rests on the spec's own decisions D2, D4, D48 (assumption log 19). -/
def Obligations.PulseHighByteWrite : Prop :=
  ∀ (p : PulseIx) (ts v : Nat) (s : State), Served (pulseHighOf p ts v) s →
    let c := arrive ts s
    let b := BitVec.ofNat 8 v
    ∃ t, exec (pulseHighOf p ts v) s = .next t ∧
      t = { withFifo c t with cache := t.cache, length := t.length, env := t.env } ∧
      Synced ts (match p with | .pulse0 => 1 | .pulse1 => 2) [] c t ∧
      field (t.cache.get p.chan) 12 3 = b.extractLsb' 0 3 ∧
      field (t.cache.get p.chan) 0 12 = field (c.cache.get p.chan) 0 12 ∧
      (t.cache.get p.chan).getLsbD 15 = (c.cache.get p.chan).getLsbD 15 ∧
      (∀ ch, ch ≠ p.chan → t.cache.get ch = c.cache.get ch) ∧
      t.length.get p.chan = (if c.lenEnable.get p.chan then lengthEntry c.cfg (b.extractLsb' 3 5)
        else c.length.get p.chan) ∧
      (∀ ch, ch ≠ p.chan → t.length.get ch = c.length.get ch) ∧
      t.env.get p.env = { c.env.get p.env with reload := true } ∧
      ∀ e, e ≠ p.env → t.env.get e = c.env.get e

/-! ### The triangle ports (R140 to R143) -/

/-- R140: the control register completes: `control` and nothing else. -/
def Obligations.TriangleControlWrite : Prop :=
  ∀ (ts v : Nat) (s : State), Served (.triCtrl ts v) s →
    let c := arrive ts s
    ∃ t, exec (.triCtrl ts v) s = .next t ∧
      t = { withFifo c t with tri := { c.tri with control := BitVec.ofNat 8 v } } ∧ Synced ts 0 [] c t

/-- R141, R143: the period low byte completes: period bits 7..0 and the delay armed at `ts + 100`, whatever was armed
before.
Rests on the spec's own decisions D2, D50 (assumption log 19). -/
def Obligations.TriangleLowByteWrite : Prop :=
  ∀ (ts v : Nat) (s : State), Served (.triLo ts v) s →
    let c := arrive ts s
    ∃ t, exec (.triLo ts v) s = .next t ∧
      t = { withFifo c t with tri := { c.tri with period := t.tri.period, updateAt := some (ts + 100) } } ∧
      Synced ts 0 [] c t ∧
      t.tri.period.extractLsb' 0 8 = BitVec.ofNat 8 v ∧
      t.tri.period.extractLsb' 8 3 = c.tri.period.extractLsb' 8 3

/-- R142, R143, R169: the period high byte completes: period bits 10..8, the length load under the enable, the linear
reload flag, the delay; no phase-reset bit.
Rests on the spec's own decisions D2, D23, D50 (assumption log 19). -/
def Obligations.TriangleHighByteWrite : Prop :=
  ∀ (ts v : Nat) (s : State), Served (.triHi ts v) s →
    let c := arrive ts s
    let b := BitVec.ofNat 8 v
    ∃ t, exec (.triHi ts v) s = .next t ∧
      t = { withFifo c t with
        length := t.length
        tri := { c.tri with period := t.tri.period, linearReload := true, updateAt := some (ts + 100) } } ∧
      Synced ts 0 [] c t ∧
      t.tri.period.extractLsb' 8 3 = b.extractLsb' 0 3 ∧
      t.tri.period.extractLsb' 0 8 = c.tri.period.extractLsb' 0 8 ∧
      t.length = (if c.lenEnable.tri then { c.length with tri := lengthEntry c.cfg (b.extractLsb' 3 5) }
        else c.length)

/-! ### The noise ports (R155 to R158) -/

/-- R155: the noise envelope register completes; the pulses' duty fields and the mode and frequency are kept.
Rests on the spec's own decision D2 (assumption log 19). -/
def Obligations.NoiseControlWrite : Prop :=
  ∀ (ts v : Nat) (s : State), Served (.noiCtrl ts v) s →
    let c := arrive ts s
    let b := BitVec.ofNat 8 v
    ∃ t, exec (.noiCtrl ts v) s = .next t ∧
      t = { withFifo c t with
        env := { c.env with noise := { c.env.noise with
          period := b.extractLsb' 0 4, constant := b.getLsbD 4, loop := b.getLsbD 5 } }
        cache := { c.cache with noise := t.cache.noise } } ∧
      Synced ts 0 [] c t ∧
      field t.cache.noise 0 4 = (if b.getLsbD 4 then b.extractLsb' 0 4 else c.env.noise.level) ∧
      field t.cache.noise 4 12 = field c.cache.noise 4 12

/-- R156, R158: the mode register completes; the generator advances on a 0 to 1 edge of the mode bit only.
Rests on the spec's own decisions D2, D27 (assumption log 19). -/
def Obligations.NoiseModeWrite : Prop :=
  ∀ (ts v : Nat) (s : State), Served (.noiMode ts v) s →
    let c := arrive ts s
    let b := BitVec.ofNat 8 v
    ∃ t, exec (.noiMode ts v) s = .next t ∧
      t = { withFifo c t with noise := t.noise, cache := { c.cache with noise := t.cache.noise } } ∧
      Synced ts 0 [] c t ∧
      t.noise.mode = b.getLsbD 7 ∧
      t.noise.prng = (if c.noise.mode = false ∧ b.getLsbD 7 = true then prngNext c.cfg c.noise.prng
        else c.noise.prng) ∧
      t.cache.noise.getLsbD 8 = b.getLsbD 7 ∧
      field t.cache.noise 4 4 = b.extractLsb' 0 4 ∧
      field t.cache.noise 0 4 = field c.cache.noise 0 4 ∧
      field t.cache.noise 9 7 = field c.cache.noise 9 7

/-- R157, R169: the noise length load completes: the load under the enable, the envelope's reload flag, no phase
reset.
Rests on the spec's own decisions D2, D23 (assumption log 19). -/
def Obligations.NoiseLengthWrite : Prop :=
  ∀ (ts v : Nat) (s : State), Served (.noiLen ts v) s →
    let c := arrive ts s
    ∃ t, exec (.noiLen ts v) s = .next t ∧
      t = { withFifo c t with
        length := (if c.lenEnable.noise
          then { c.length with noise := lengthEntry c.cfg ((BitVec.ofNat 8 v).extractLsb' 3 5) } else c.length)
        env := { c.env with noise := { c.env.noise with reload := true } } } ∧
      Synced ts 0 [] c t

/-! ### The delta-modulation ports (R201 to R204, R212) -/

/-- R201: the control register completes; `next_commit` is not written.
Rests on the spec's own decision D2 (assumption log 19). -/
def Obligations.PlayerControlWrite : Prop :=
  ∀ (ts v : Nat) (s : State), Served (.dmcCtrl ts v) s →
    let c := arrive ts s
    let b := BitVec.ofNat 8 v
    ∃ t, exec (.dmcCtrl ts v) s = .next t ∧
      t = { withFifo c t with dmc := { c.dmc with
        irqEnable := b.getLsbD 7, loop := b.getLsbD 6, rate := b.extractLsb' 0 4,
        period := rateEntry c.cfg (b.extractLsb' 0 4) } } ∧
      Synced ts 0 [] c t

/-- R202, R212, R67: the direct level load completes: the masked byte becomes the level, and the difference is added
to the sample period's sum, which is written to the delta stream; every other entry is kept.
Rests on the spec's own decisions D2, D31, D32 (assumption log 19). -/
def Obligations.PlayerLevelWrite : Prop :=
  ∀ (ts v : Nat) (s : State), Served (.dmcLevel ts v) s → s.deltas.wf →
    let c := arrive ts s
    let new := BitVec.ofNat 8 v &&& c.cfg.dmcDirectMask
    let d : Int := (new.toNat : Int) - c.dmc.level.toNat
    let sum := if sampleIndex ts c = c.dmc.stagedSample then c.dmc.stagedDelta + d else d
    ∃ t, exec (.dmcLevel ts v) s = .next t ∧
      t = { withFifo c t with
        dmc := { c.dmc with level := new, stagedSample := sampleIndex ts c, stagedDelta := sum }
        deltas := t.deltas } ∧
      Synced ts 0 [.delta (sampleIndex ts c) sum] c t ∧
      deltaAt (sampleIndex ts c) t = sum ∧
      ∀ k, k ≠ sampleIndex ts c → deltaAt k t = deltaAt k c

/-- R203, R204: the start-address and sample-length registers complete, with no other effect. -/
def Obligations.PlayerAddressAndLengthWrites : Prop :=
  ∀ (ts v : Nat) (s : State),
    (Served (.dmcAddr ts v) s → ∃ t, exec (.dmcAddr ts v) s = .next t ∧
      t = { withFifo (arrive ts s) t with dmc := { (arrive ts s).dmc with start := BitVec.ofNat 8 v } } ∧
      Synced ts 0 [] (arrive ts s) t) ∧
    (Served (.dmcLen ts v) s → ∃ t, exec (.dmcLen ts v) s = .next t ∧
      t = { withFifo (arrive ts s) t with dmc := { (arrive ts s).dmc with len := BitVec.ofNat 8 v } } ∧
      Synced ts 0 [] (arrive ts s) t)

/-! ### The control ports (R108, R168, R185, R205) -/

/-- R168, R205, R206: the shared enable register completes: the four length-enable bits, the counters forced to zero,
the triangle's delay, and the player started, left alone or stopped.
Rests on the spec's own decisions D2, D26, D29 (assumption log 19). -/
def Obligations.ChannelEnableWrite : Prop :=
  ∀ (ts v : Nat) (s : State), Served (.chEnable ts v) s →
    let c := arrive ts s
    let b := BitVec.ofNat 8 v
    ∃ t, exec (.chEnable ts v) s = .next t ∧
      t = { withFifo c t with
        lenEnable := ⟨b.getLsbD 0, b.getLsbD 1, b.getLsbD 2, b.getLsbD 3⟩
        length := ⟨if b.getLsbD 0 then c.length.pulse0 else 0, if b.getLsbD 1 then c.length.pulse1 else 0,
          if b.getLsbD 2 then c.length.tri else 0, if b.getLsbD 3 then c.length.noise else 0⟩
        tri := { c.tri with updateAt := if b.getLsbD 2 then c.tri.updateAt else some (ts + 100) }
        dmc := t.dmc } ∧
      Synced ts 0 [] c t ∧
      (b.getLsbD 4 = true → c.dmc.bytesRem = 0 →
        t.dmc = { c.dmc with
          cursor := BitVec.ofNat 16 (c.cfg.dmcBase + c.dmc.start.toNat * 64)
          bytesRem := c.dmc.len.toNat * 16 + 1
          active := true
          nextCommit := some (c.dmc.nextCommit.getD (ts + c.dmc.period)) }) ∧
      (b.getLsbD 4 = true → c.dmc.bytesRem ≠ 0 → t.dmc = c.dmc) ∧
      (b.getLsbD 4 = false →
        t.dmc = { c.dmc with bytesRem := 0, bitsRem := 0, active := false, nextCommit := none })

/-- R185, R181, R183: the sequencer-control register completes for every served write: without the immediate tick only
`seq` is written; with it the units and the Cache are clocked as by a tick that enters with step 0, before the divider
is reset.
Rests on the spec's own decisions D2, D11, D13, D14, D22 (assumption log 19). -/
def Obligations.SequencerControlWrite : Prop :=
  ∀ (ts v : Nat) (s : State), Served (.seqCtrl ts v) s →
    let c := arrive ts s
    let b := BitVec.ofNat 8 v
    ∃ t, exec (.seqCtrl ts v) s = .next t ∧ Synced ts 0 [] c t ∧
      t.seq.irqInhibit = b.getLsbD 6 ∧
      t.seq.frameIrq = (if b.getLsbD 6 then false else c.seq.frameIrq) ∧
      t.seq.half = true ∧
      (b.getLsbD 7 = false →
        t = { withFifo c t with seq := t.seq } ∧ t.seq.step = 0 ∧ t.seq.mode = .fourStep ∧
        t.seq.stepP2 = c.cfg.stepP2Four ∧ t.seq.nextTick = ts + c.cfg.stepP2Four / 2) ∧
      (b.getLsbD 7 = true →
        t = { withFifo c t with
          seq := t.seq, env := t.env, tri := t.tri, length := t.length, sweep := t.sweep, cache := t.cache } ∧
        t.seq.step = 1 ∧ t.seq.mode = .fiveStep ∧
        t.seq.stepP2 = c.cfg.stepP2Five ∧ t.seq.nextTick = ts + c.cfg.stepP2Five / 2 ∧
        (∀ e, t.env.get e = envelopeClocked (c.env.get e)) ∧ t.tri = linearClocked c.tri ∧
        (∀ ch, t.length.get ch = lengthClocked (halted ch c) (c.length.get ch)) ∧
        (∀ p : PulseIx, t.sweep.get p = sweepClocked (c.sweep.get p) ∧
          t.cache.get p.chan = (clockSweep p (clockEnvelope p.env c)).cache.get p.chan) ∧
        (∀ e : EnvIx, field (t.cache.get e.chan) 0 4 = volume (t.env.get e)) ∧
        field t.cache.noise 4 12 = field c.cache.noise 4 12 ∧
        t.cache.tri = (if (c.tri.linear != 0) != (t.tri.linear != 0) ∨ (c.length.tri ≠ 0 ∧ t.length.tri = 0)
          then triWord t else c.cache.tri))

/-- R106, R108: `FORCE` and the four ports without a behaviour complete: the catch-up and one `Sync`, no unit's field,
and all five give one and the same state.
Rests on the spec's own decisions D35, D49 (assumption log 19). -/
def Obligations.ForceAndEmptyPortsOnlySynchronise : Prop :=
  ∀ (ts v : Nat) (s : State), v < 2 ^ 8 → Served (.force ts) s →
    ∃ t, exec (.force ts) s = .next t ∧ t = withFifo (arrive ts s) t ∧ Synced ts 0 [] (arrive ts s) t ∧
      ∀ i ∈ nopInstrs ts v, exec i s = .next t

/-! ### The other commands (R105 to R107, R170, R250 to R252) -/

/-- R105, R170: the status read completes: the byte, its report, the frame flag cleared, no `Sync`.  Bits 5 and 7
are not spoken of (U7).
Rests on the spec's own decisions D30, D34 (assumption log 19). -/
def Obligations.StatusReadReturnsAndClears : Prop :=
  ∀ (ts : Nat) (s : State), Ready (.rdStatus ts) s → (arrive ts s).fault = none →
    let c := arrive ts s
    ∃ (t : State) (r : Byte), exec (.rdStatus ts) s = .next t ∧
      t = { c with events := c.events ++ [.status r], seq := { c.seq with frameIrq := false } } ∧
      r.getLsbD 0 = (c.length.pulse0 != 0) ∧ r.getLsbD 1 = (c.length.pulse1 != 0) ∧
      r.getLsbD 2 = (c.length.tri != 0) ∧ r.getLsbD 3 = (c.length.noise != 0) ∧
      r.getLsbD 4 = c.dmc.active ∧ r.getLsbD 6 = c.seq.frameIrq

/-- R107, R250 to R252: where the lead after the flush allows it `EOF` completes in one step: the flush, then every
stored time moved down by `D` and `offset` up by `D * SCALE`.
Rests on the spec's own decisions D8, D41 (assumption log 19). -/
def Obligations.EndOfFrameFlushesAndRebases : Prop :=
  ∀ (ts : Nat) (s : State), Served (.eof ts) s → lead (sync ts (arrive ts s)) ≤ s.cfg.leadSlots →
    let c := arrive ts s
    let D := ts / 2 ^ 21 * 2 ^ 21
    ∃ t, exec (.eof ts) s = .next t ∧ Synced ts 0 [] c t ∧
      t = { withFifo c t with
        seq := { c.seq with nextTick := c.seq.nextTick - D }
        tri := { c.tri with updateAt := c.tri.updateAt.map (· - D) }
        dmc := { c.dmc with nextCommit := c.dmc.nextCommit.map (· - D) }
        lastTs := c.lastTs - D
        offset := c.offset + D * c.cfg.scale
        eofWait := none }

/-- R107, R251: where the lead is too great the same flush happens and the engine is held at the wait.
Rests on the spec's own decision D41 (assumption log 19). -/
def Obligations.EndOfFrameIsHeldWhileTheLeadIsTooGreat : Prop :=
  ∀ (ts : Nat) (s : State), Served (.eof ts) s → s.cfg.leadSlots < lead (sync ts (arrive ts s)) →
    ∃ t, exec (.eof ts) s = .next t ∧ Synced ts 0 [] (arrive ts s) t ∧
      t = { withFifo (arrive ts s) t with eofWait := some ts }

/-- R251, R70: each consumer turn reduces the lead by one, so a held `EOF` passes after exactly
`lead - LEAD_SLOTS` of them and not before.
Rests on the spec's own decision D39 (assumption log 19). -/
def Obligations.HoldLiftsAfterExactlyTheExcessLead : Prop :=
  ∀ (s : State) (ts k : Nat), s.readPos < s.cfg.nslots → s.writeCursor < s.cfg.nslots → s.eofWait = some ts →
    k ≤ lead s →
    lead (consumerAdvance^[k] s) = lead s - k ∧
    ((passWait ts (consumerAdvance^[k] s)).eofWait = none ↔ lead s - s.cfg.leadSlots ≤ k)

/-! ### The clocked units (R122, R123, R126, R127, R145, R146, R165, R166, R181, R183, R184) -/

/-- R123, R122: one clock of an envelope: its fields, its channel's volume nibble, nothing else.
Rests on the spec's own decision D15 (assumption log 19). -/
def Obligations.EnvelopeClock : Prop :=
  ∀ (e : EnvIx) (s : State), let old := s.env.get e; let t := clockEnvelope e s; let new := t.env.get e
    (old.reload = true → new = { old with reload := false, level := 15, divider := old.period }) ∧
    (old.reload = false → old.divider ≠ 0 → new = { old with divider := old.divider - 1 }) ∧
    (old.reload = false → old.divider = 0 → old.level ≠ 0 →
      new = { old with divider := old.period, level := old.level - 1 }) ∧
    (old.reload = false → old.divider = 0 → old.level = 0 → old.loop = true →
      new = { old with divider := old.period, level := 15 }) ∧
    (old.reload = false → old.divider = 0 → old.level = 0 → old.loop = false → new = { old with divider := old.period }) ∧
    field (t.cache.get e.chan) 0 4 = (if new.constant then new.period else new.level) ∧
    field (t.cache.get e.chan) 4 12 = field (s.cache.get e.chan) 4 12 ∧
    (∀ e', e' ≠ e → t.env.get e' = s.env.get e') ∧
    (∀ ch, ch ≠ e.chan → t.cache.get ch = s.cache.get ch) ∧
    t = { s with env := t.env, cache := t.cache }

/-- R129 (a): after the clock that consumes a reload the level falls by one every `period + 1` clocks down to 0, and at
no clock between; with `loop = 0` it stays there, with `loop = 1` the clock after `period + 1` clocks at 0 sets it back
to 15.
Rests on the spec's own decision D15 (assumption log 19). -/
def Obligations.EnvelopeDecaysOneLevelEveryPeriodPlusOneClocks : Prop :=
  ∀ (e : Envelope), e.reload = true →
    let n := e.period.toNat + 1
    let start := envelopeClocked e
    (∀ m, m < 16 * n → (envelopeClocked^[m] start).level = BitVec.ofNat 4 (15 - m / n)) ∧
    (e.loop = false → ∀ m, 15 * n ≤ m → (envelopeClocked^[m] start).level = 0) ∧
    (e.loop = true → (envelopeClocked^[16 * n] start).level = 15)

/-- R126: one clock of a sweep: when the period is updated, the divider, the reload flag, the frame.
Rests on the spec's own decision D16 (assumption log 19). -/
def Obligations.SweepClock : Prop :=
  ∀ (p : PulseIx) (s : State), let old := s.sweep.get p; let t := clockSweep p s
    t.sweep.get p = (if old.divider = 0 ∨ old.reload = true
      then { old with divider := old.period, reload := false } else { old with divider := old.divider - 1 }) ∧
    (∀ q, q ≠ p → t.sweep.get q = s.sweep.get q) ∧
    t.cache = (if old.divider = 0 ∧ old.enabled = true ∧ old.shift ≠ 0 then (sweepUpdate p s).cache else s.cache) ∧
    t = { s with sweep := t.sweep, cache := t.cache }

/-- R127, R9: the sweep calculation: no update below 8, the subtraction with channel 0's extra 1, the addition and its
discard; bit 15 and the volume nibble are kept.
Rests on the spec's own decisions D16, D17 (assumption log 19). -/
def Obligations.SweepUpdateCalculation : Prop :=
  ∀ (p : PulseIx) (s : State),
    let w := s.cache.get p.chan
    let per := (field w 4 11).toNat
    let mag := per / 2 ^ (s.sweep.get p).shift.toNat
    let t := sweepUpdate p s
    let new := (field (t.cache.get p.chan) 4 11).toNat
    (per < 8 → t = s) ∧
    (8 ≤ per → (s.sweep.get p).negate = true →
      (new : Int) = ((per : Int) - mag - (match p with | .pulse0 => 1 | .pulse1 => 0)) % 2048) ∧
    (8 ≤ per → (s.sweep.get p).negate = false → per + mag ≤ 2047 → new = per + mag) ∧
    (8 ≤ per → (s.sweep.get p).negate = false → 2047 < per + mag → t = s) ∧
    field (t.cache.get p.chan) 0 4 = field w 0 4 ∧ (t.cache.get p.chan).getLsbD 15 = w.getLsbD 15 ∧
    (∀ ch, ch ≠ p.chan → t.cache.get ch = s.cache.get ch) ∧
    t = { s with cache := t.cache }

/-- R165, R166: one clock of a length counter: halted or at zero it keeps, else it falls by one; a counter loaded with
`n` reaches 0 at the `n`-th clock at which it is not halted and stays there.
Rests on the spec's own decision D25 (assumption log 19). -/
def Obligations.LengthClock : Prop :=
  ∀ (ch : Chan) (s : State), let t := clockLength ch s
    (halted .pulse0 s = s.env.pulse0.loop ∧ halted .pulse1 s = s.env.pulse1.loop ∧
      halted .tri s = s.tri.control.getLsbD 7 ∧ halted .noise s = s.env.noise.loop) ∧
    (halted ch s = true → t = s) ∧
    (halted ch s = false → ∀ k,
      ((clockLength ch)^[k] s).length.get ch = BitVec.ofNat 8 ((s.length.get ch).toNat - k)) ∧
    (∀ ch', ch' ≠ ch → t.length.get ch' = s.length.get ch') ∧
    t = { s with length := t.length }

/-- R145, R146, R144: one clock of the linear counter, the triangle's word at a recompute point, and the delay's expiry:
the Cache word, the timer disarmed, one `Sync` at the expiry's own time, and nothing else.
Rests on the spec's own decisions D22, D24 (assumption log 19). -/
def Obligations.LinearCounterAndTriangleWord : Prop :=
  ∀ (T : Nat) (s : State),
    (clockLinear s = { s with tri := { s.tri with
      linear := (if s.tri.linearReload then s.tri.control.extractLsb' 0 7
        else BitVec.ofNat 7 (s.tri.linear.toNat - 1))
      linearReload := s.tri.linearReload && s.tri.control.getLsbD 7 } }) ∧
    (s.length.tri ≠ 0 → s.tri.linear ≠ 0 → field (triWord s) 4 11 = s.tri.period ∧ triWordOk (triWord s)) ∧
    (s.length.tri = 0 ∨ s.tri.linear = 0 → triWord s = 0) ∧
    (triExpire T s).cache = { s.cache with tri := triWord s } ∧
    (triExpire T s).tri = { s.tri with updateAt := none } ∧
    (s.pendingSample ≤ sampleIndex T s → Synced T 0 [] s (triExpire T s) ∧
      triExpire T s = { withFifo s (triExpire T s) with
        cache := { s.cache with tri := triWord s }
        tri := { s.tri with updateAt := none } })

/-- R183, R184, R147 (b): one tick: the three envelopes and the linear counter always; the lengths and the sweeps on an
even entry step only; the frame flag; the step; the triangle's word on request; the FIFO side by one `Sync(T)`.
Rests on the spec's own decisions D11, D22 (assumption log 19). -/
def Obligations.TickClocksTheUnits : Prop :=
  ∀ (T : Nat) (s : State), s.fault = none → s.pendingSample ≤ sampleIndex T s → let t := tick T s
    Synced T 0 [] s t ∧
    (∀ e, t.env.get e = envelopeClocked (s.env.get e)) ∧
    t.tri = linearClocked s.tri ∧
    (s.seq.step.getLsbD 0 = false →
      (∀ ch, t.length.get ch = lengthClocked (halted ch s) (s.length.get ch)) ∧
      (∀ p : PulseIx, t.sweep.get p = sweepClocked (s.sweep.get p) ∧
        t.cache.get p.chan = (clockSweep p (clockEnvelope p.env s)).cache.get p.chan)) ∧
    (s.seq.step.getLsbD 0 = true → t.length = s.length ∧ t.sweep = s.sweep ∧
      ∀ p : PulseIx, field (t.cache.get p.chan) 4 12 = field (s.cache.get p.chan) 4 12) ∧
    (∀ e : EnvIx, field (t.cache.get e.chan) 0 4 = volume (t.env.get e)) ∧
    field t.cache.noise 4 12 = field s.cache.noise 4 12 ∧
    t.seq = { s.seq with
      step := s.seq.step + 1
      frameIrq := s.seq.frameIrq || (s.seq.mode == .fourStep && s.seq.step == 3 && !s.seq.irqInhibit) } ∧
    t.cache.tri = (if (s.tri.linear != 0) != (t.tri.linear != 0) ∨ (s.length.tri ≠ 0 ∧ t.length.tri = 0)
      then triWord t else s.cache.tri) ∧
    t = { withFifo s t with
      env := t.env, tri := t.tri, length := t.length, sweep := t.sweep, cache := t.cache, seq := t.seq }

/-- R181, R182: scheduling a tick from `T` takes the floor of half of `step_p2` where `half` is 0 and the ceiling where
it is 1, toggles `half` and writes nothing else; two schedules in a row take the two roundings and sum to `step_p2`; a
reset of the divider takes the floor (R185).
Rests on the spec's own decisions D13, D14 (assumption log 19). -/
def Obligations.SuccessiveStepsSumToStepP2 : Prop :=
  ∀ (T : Nat) (s : State),
    let t := scheduleTick T s
    let u := scheduleTick t.seq.nextTick t
    (s.seq.half = false → t.seq.nextTick = T + s.seq.stepP2 / 2) ∧
    (s.seq.half = true → t.seq.nextTick = T + (s.seq.stepP2 + 1) / 2) ∧
    t = { s with seq := { s.seq with nextTick := t.seq.nextTick, half := !s.seq.half } } ∧
    u = { s with seq := { s.seq with nextTick := T + s.seq.stepP2 } } ∧
    seqRestart T s = { s with seq := { s.seq with nextTick := T + s.seq.stepP2 / 2, half := true } }

/-! ### The player (R206 to R213) -/

/-- R207 and its source property: the cursor's increment forces bit 15 and keeps the 15 bits below it as the incremented
value has them; 0xFFFF is followed by 0x8000. -/
def Obligations.CursorStaysInTheUpperHalf : Prop :=
  (∀ c : Word16, (nextCursor c).getLsbD 15 = true) ∧
  (∀ c : Word16, (nextCursor c).toNat = 0x8000 + (c.toNat + 1) % 0x8000) ∧
  nextCursor 0xFFFF = 0x8000

/-- R209: a bit moves the level by 2 where that does not cross 0 or 127, else not at all; the delta returned is the
change.
Rests on the spec's own decision D28 (assumption log 19). -/
def Obligations.DeltaBitNeverCrossesTheBoundary : Prop :=
  ∀ (b : Bool) (level : Byte),
    ((bitLevel b level).toNat : Int) = level.toNat + bitDelta b level ∧
    bitDelta b level = (if b then (if level.toNat ≤ 125 then 2 else 0) else (if 2 ≤ level.toNat then -2 else 0)) ∧
    (level.toNat ≤ 127 → (bitLevel b level).toNat ≤ 127)

/-- R208, R211: a tick with bits left plays one bit: level, shifter, count, schedule, and the sum written to the delta
stream.
Rests on the spec's own decisions D28, D31 (assumption log 19). -/
def Obligations.PlayerTickPlaysOneBit : Prop :=
  ∀ (T : Nat) (s : State), s.dmc.bitsRem ≠ 0 → s.deltas.wf →
    let t := dmcTick T s
    let d := bitDelta (s.dmc.shifter.getLsbD 0) s.dmc.level
    let sum := if sampleIndex T s = s.dmc.stagedSample then s.dmc.stagedDelta + d else d
    t = { s with
      dmc := { s.dmc with
        level := bitLevel (s.dmc.shifter.getLsbD 0) s.dmc.level
        shifter := BitVec.ofNat 8 (s.dmc.shifter.toNat / 2)
        bitsRem := s.dmc.bitsRem - 1
        nextCommit := some (T + s.dmc.period)
        stagedSample := sampleIndex T s
        stagedDelta := sum }
      deltas := t.deltas
      events := s.events ++ [.delta (sampleIndex T s) sum] } ∧
    deltaAt (sampleIndex T s) t = sum ∧ ∀ k, k ≠ sampleIndex T s → deltaAt k t = deltaAt k s

/-- R208, R206, R210, R61: a tick without bits left fetches the next byte, restarts and fetches, or completes.  The
byte is the pinned one, or whatever the oracle answers (`sampleByte` is free: nothing here says what it is).
Rests on the spec's own decisions D28, D30, D40 (assumption log 19). -/
def Obligations.PlayerTickFetchesRestartsOrCompletes : Prop :=
  ∀ (T : Nat) (s : State), s.dmc.bitsRem = 0 →
    (s.dmc.bytesRem ≠ 0 → ∃ b, (∀ p, sparseGet s.dmc.cursor.toNat s.mem = some p → b = p) ∧
      dmcTick T s = dmcTick T { s with
        events := s.events ++ [.fetch s.dmc.cursor b]
        dmc := { s.dmc with
          shifter := b, cursor := nextCursor s.dmc.cursor, bytesRem := s.dmc.bytesRem - 1, bitsRem := 8 } }) ∧
    (s.dmc.bytesRem = 0 → s.dmc.loop = true →
      dmcTick T s = dmcTick T { s with dmc := { s.dmc with
        cursor := BitVec.ofNat 16 (s.cfg.dmcBase + s.dmc.start.toNat * 64)
        bytesRem := s.dmc.len.toNat * 16 + 1 } }) ∧
    (s.dmc.bytesRem = 0 → s.dmc.loop = false →
      dmcTick T s = { s with
        dmc := { s.dmc with active := false, nextCommit := none }
        events := s.events ++ [.dmcDone s.dmc.irqEnable] })

/-! ### The synchroniser (R226 to R235) -/

/-- R226, R227, R235: what a `Sync` does to its FIFO side, and that it touches nothing else.
Rests on the spec's own decision D5 (assumption log 19). -/
def Obligations.SyncFlushesThenRebuilds : Prop :=
  ∀ (ts : Nat) (s : State),
    (s.pendingSample ≤ sampleIndex ts s →
      sync ts s = withFifo s (sync ts s) ∧ Synced ts 0 [] s (sync ts s)) ∧
    (sampleIndex ts s < s.pendingSample →
      sync ts s = { s with fault := some (.sampleIndexRegression (sampleIndex ts s) s.pendingSample) })

/-- R229: the word staged for a pulse is 0 when inactive, below period 8, or past the add-direction overflow test, and
the Cache word otherwise.
Rests on the spec's own decisions D18, D19 (assumption log 19). -/
def Obligations.StagedPulseWordIsMutedOrTheCacheWord : Prop :=
  ∀ (p : PulseIx) (s : State),
    let w := s.cache.get p.chan
    let per := (field w 4 11).toNat
    let muted := s.length.get p.chan = 0 ∨ per < 8 ∨
      ((s.sweep.get p).negate = false ∧ 0x7FF < per + per / 2 ^ (s.sweep.get p).shift.toNat)
    (muted → stagedPulse p s = 0) ∧ (¬ muted → stagedPulse p s = w)

/-- R230, R231: the word staged for the triangle and word 3; an inactive noise channel clears `NOISE_FIELDS` only.
Rests on the spec's own decisions D19, D21 (assumption log 19). -/
def Obligations.StagedTriangleAndNoiseWords : Prop :=
  ∀ s : State,
    stagedTri s = (if s.length.tri = 0 then 0 else s.cache.tri) ∧
    (s.length.noise ≠ 0 → stagedNoise s = s.cache.noise) ∧
    (s.length.noise = 0 → ∀ k, k < 16 →
      (stagedNoise s).getLsbD k = (s.cache.noise.getLsbD k && !s.cfg.noiseFields.getLsbD k))

/-- R234 (a): of two low-byte writes to one pulse in one sample period, the slot of that period holds what was staged
at the later, and only the flush before the period and that slot are written. -/
def Obligations.LaterWriteOfAPeriodWins : Prop :=
  ∀ (p : PulseIx) (t1 v1 t2 v2 t3 : Nat) (s : State),
    Ready (pulseLowOf p t1 v1) s → t1 ≤ t2 → v2 < 2 ^ 8 → t2 ≤ t3 → t3 < 2 ^ 32 → NoneDue t3 s →
    s.pendingSample ≤ sampleIndex t1 s → sampleIndex t1 s = sampleIndex t2 s → sampleIndex t2 s < sampleIndex t3 s →
    ∃ a b c, exec (pulseLowOf p t1 v1) s = .next a ∧ exec (pulseLowOf p t2 v2) a = .next b ∧
      exec (.force t3) b = .next c ∧
      field (b.cache.get p.chan) 4 8 = BitVec.ofNat 8 v2 ∧
      c.events = s.events ++ flushEvents t1 s ++ [.slot b.writeCursor (pendingSlot b)] ∧
      (pendingSlot b).sample = sampleIndex t1 s ∧ b.pending = staged b ∧
      slotAt b.writeCursor c = some (pendingSlot b)

/-- R233: a high-byte write that opens a sample period goes out with the new period, not the old: the flush it makes
carries the old Pending and the old control bits, and the next flush carries the phase-reset bit.
Rests on the spec's own decisions D4, D48 (assumption log 19). -/
def Obligations.PhaseResetGoesOutWithTheNewPeriod : Prop :=
  ∀ (p : PulseIx) (t1 v t2 : Nat) (s : State),
    Ready (pulseHighOf p t1 v) s → t1 ≤ t2 → t2 < 2 ^ 32 → NoneDue t2 s →
    s.pendingSample < sampleIndex t1 s → sampleIndex t1 s < sampleIndex t2 s →
    ∃ a b, exec (pulseHighOf p t1 v) s = .next a ∧ exec (.force t2) a = .next b ∧
      b.events = s.events ++ [.slot s.writeCursor (pendingSlot s), .slot a.writeCursor (pendingSlot a)] ∧
      (pendingSlot a).sample = sampleIndex t1 s ∧ a.pending = staged a ∧
      (pendingSlot a).ctrl = (match p with | .pulse0 => 1 | .pulse1 => 2) ∧
      field (a.cache.get p.chan) 12 3 = (BitVec.ofNat 8 v).extractLsb' 0 3

/-! ### The bridge (R245, R252, R253) -/

/-- R245, R253: the sample index is the floor of the fixed-point value, does not go back as time goes on, and is
exactly preserved by a rebase.
Rests on the spec's own decision D7 (assumption log 19). -/
def Obligations.SampleIndexIsMonotoneAndRebaseProof : Prop :=
  ∀ (t t' d ts : Nat) (s : State),
    sampleIndex t s = (t * s.cfg.scale + s.offset) / 2 ^ 21 ∧
    (t ≤ t' → sampleIndex t s ≤ sampleIndex t' s) ∧
    (d ≤ t → sampleIndex (t - d) (moveTimes d s) = sampleIndex t s) ∧
    rebaseAmount ts = ts / 2 ^ 21 * 2 ^ 21 ∧ rebaseAmount ts ≤ ts

/-- R253: the rebase is transparent to every later command but `EOF`: from a state whose stored times were moved down
by `d`, the command at `ts - d` gives the state the command at `ts` would have given, moved down by `d`.
Rests on the spec's own decision D8 (assumption log 19). -/
def Obligations.RebaseIsTransparentToEveryCommand : Prop :=
  ∀ (i : Instr) (d : Nat) (s t : State), Ready i s → TimesFrom d s → i ≠ .eof i.ts → exec i s = .next t →
    exec (retime (i.ts - d) i) (moveTimes d s) = .next (moveTimes d t) ∧ TimesFrom d t

/-! ### Invariants that every step keeps (R39, R40) -/

/-- R40, R39 (a), R264: the schedule stays ahead of the last command, the staged indices do not lie after it, and no
`SampleIndexRegression` is ever raised. -/
def Obligations.StepKeepsTheScheduleAhead : Prop :=
  ∀ s t : State, Configured s → Timely s → step s = .next t → Configured t ∧ Timely t

/-- R40, R63, R66: the three stores stay in canonical form and both cursors stay below `NSLOTS`.
Rests on the spec's own decisions D5, D31 (assumption log 19). -/
def Obligations.StepKeepsTheStoresCanonical : Prop :=
  ∀ s t : State, s.cfg.Ok → Canonical s → step s = .next t → Canonical t

/-- R98, R40, R122: every word held, staged or written keeps its zero bits, and the volume nibbles follow the
envelopes.
Rests on the spec's own decisions D3, D4, D34 (assumption log 19). -/
def Obligations.StepKeepsTheWordFormats : Prop :=
  ∀ s t : State, Formatted s → step s = .next t → Formatted t

/-- R40, R30, R213: the player's registers stay in their ranges.
Rests on the spec's own decision D33 (assumption log 19). -/
def Obligations.StepKeepsThePlayerBounded : Prop :=
  ∀ s t : State, s.cfg.Ok → PlayerBounded s → step s = .next t → PlayerBounded t

/-- R39 (b), R234 (b): the tags of successive slot writes strictly increase. -/
def Obligations.StepKeepsTheSlotTagsRising : Prop :=
  ∀ s t : State, TagsRising s → step s = .next t → TagsRising t

/-- R41: the reset state under a configuration, field by field; the pinned sample memory, the command stream and the
schedule the model adds are empty (assumption logs 2, 5 and 6).
Rests on the spec's own decisions D5, D31, D37, D39 (assumption log 19). -/
def Obligations.ResetHoldsTheSpecsValues : Prop :=
  ∀ c : Cfg, let s := State.resetOf c
    (∀ e, let v := s.env.get e
      v.period = 0 ∧ v.divider = 0 ∧ v.level = 0 ∧ v.constant = false ∧ v.loop = false ∧ v.reload = false) ∧
    (∀ p, let w := s.sweep.get p
      w.period = 0 ∧ w.divider = 0 ∧ w.enabled = false ∧ w.negate = false ∧ w.shift = 0 ∧ w.reload = false) ∧
    (∀ ch, s.length.get ch = 0 ∧ s.lenEnable.get ch = false ∧ s.cache.get ch = 0 ∧ s.pending.get ch = 0) ∧
    s.tri.period = 0 ∧ s.tri.control = 0 ∧ s.tri.linear = 0 ∧ s.tri.linearReload = false ∧ s.tri.updateAt = none ∧
    s.noise.mode = false ∧ s.noise.prng = c.prngInit ∧
    s.dmc.shifter = 0 ∧ s.dmc.bitsRem = 0 ∧ s.dmc.loop = false ∧ s.dmc.irqEnable = false ∧ s.dmc.rate = 0 ∧
    s.dmc.period = rateEntry c 0 ∧ s.dmc.nextCommit = none ∧ s.dmc.level = 0 ∧ s.dmc.stagedDelta = 0 ∧
    s.dmc.stagedSample = 0 ∧ s.dmc.cursor = 0x8000 ∧ s.dmc.bytesRem = 0 ∧ s.dmc.start = 0 ∧ s.dmc.len = 0 ∧
    s.dmc.active = false ∧
    s.seq.step = 0 ∧ s.seq.mode = .fourStep ∧ s.seq.stepP2 = c.stepP2Four ∧ s.seq.half = true ∧
    s.seq.nextTick = c.stepP2Four / 2 ∧ s.seq.irqInhibit = false ∧ s.seq.frameIrq = false ∧
    s.pendingCtrl = 0 ∧ s.pendingSample = 0 ∧ s.writeCursor = 0 ∧ s.offset = 0 ∧ s.lastTs = 0 ∧
    s.eofWait = none ∧ s.fault = none ∧
    (∀ k, slotAt k s = none) ∧ (∀ k, deltaAt k s = 0) ∧ s.readPos = 0 ∧ s.events = [] ∧
    s.mem = [] ∧ s.cmds = [] ∧ s.turns = []

/-- R41, R7: the reset state under every configuration R7 allows meets every invariant, and T0 is such a configuration.
That `State.reset` is the reset state under T0 is the model's choice (assumption log 1).
Rests on the spec's own decisions D37, D42, D43 (assumption log 19). -/
def Obligations.ResetMeetsEveryInvariant : Prop :=
  Config.t0.Ok ∧ State.reset = State.resetOf Config.t0 ∧
  ∀ c : Cfg, c.Ok → Configured (State.resetOf c) ∧ Timely (State.resetOf c) ∧ Canonical (State.resetOf c) ∧
    Formatted (State.resetOf c) ∧ PlayerBounded (State.resetOf c) ∧ TagsRising (State.resetOf c)

/-! ### Whole-machine rules -/

/-- R12, R27, R31, R28, R29, R30, R34: which command writes which register: the configuration, the sample memory and the
read position none; the length enables only `CH_ENABLE`; mode, step length and inhibit only `SEQ_CTRL`; `control` only
`TRI_CTRL`; the generator only `NOI_MODE`; the player's set-up registers only their ports; `offset` and the hold only
`EOF`.
Rests on the spec's own decisions D33, D36 (assumption log 19). -/
def Obligations.EachRegisterHasItsWriters : Prop :=
  ∀ (i : Instr) (s t : State), exec i s = .next t →
    t.cfg = s.cfg ∧ t.mem = s.mem ∧ t.readPos = s.readPos ∧ t.cmds = s.cmds ∧ t.turns = s.turns ∧
    ((∀ v, i ≠ .chEnable i.ts v) → t.lenEnable = s.lenEnable) ∧
    ((∀ v, i ≠ .seqCtrl i.ts v) →
      t.seq.mode = s.seq.mode ∧ t.seq.stepP2 = s.seq.stepP2 ∧ t.seq.irqInhibit = s.seq.irqInhibit) ∧
    ((∀ v, i ≠ .triCtrl i.ts v) → t.tri.control = s.tri.control) ∧
    ((∀ v, i ≠ .triLo i.ts v ∧ i ≠ .triHi i.ts v) → t.tri.period = s.tri.period) ∧
    ((∀ v, i ≠ .noiMode i.ts v) → t.noise = s.noise) ∧
    ((∀ v, i ≠ .dmcCtrl i.ts v) → t.dmc.rate = s.dmc.rate ∧ t.dmc.period = s.dmc.period ∧
      t.dmc.loop = s.dmc.loop ∧ t.dmc.irqEnable = s.dmc.irqEnable) ∧
    ((∀ v, i ≠ .dmcAddr i.ts v) → t.dmc.start = s.dmc.start) ∧
    ((∀ v, i ≠ .dmcLen i.ts v) → t.dmc.len = s.dmc.len) ∧
    (i ≠ .eof i.ts → t.offset = s.offset ∧ t.eofWait = s.eofWait)

/-- R158: no outcome and no field but the generator's own depends on the generator's value.
Rests on the spec's own decision D27 (assumption log 19). -/
def Obligations.NothingDependsOnTheNoiseGenerator : Prop :=
  ∀ (s : State) (x : Nat),
    match step s with
    | .next t => ∃ y, step (withPrng x s) = .next (withPrng y t)
    | .fault f => step (withPrng x s) = .fault f
    | .refused r => step (withPrng x s) = .refused r
end

