-- ==== Sys2Proof/Laws/State.lean ====
section
/-! SUPPORT. The small lemmas of State: reading and setting one of several like things, and one lemma per field per
named update.  Every one is true by computation. -/

namespace Sys2Proof.Machine

/-! ### Reading after setting -/

@[simp] theorem PerChan.get_set_same {α : Type} (x : PerChan α) (ch : Chan) (a : α) : (x.set ch a).get ch = a := by
  cases ch <;> rfl

@[simp] theorem PerChan.get_set_other {α : Type} (x : PerChan α) {ch ch' : Chan} (a : α) (h : ch' ≠ ch) :
    (x.set ch a).get ch' = x.get ch' := by
  cases ch <;> cases ch' <;> first | rfl | exact absurd rfl h

@[simp] theorem PerEnv.get_set_same {α : Type} (x : PerEnv α) (e : EnvIx) (a : α) : (x.set e a).get e = a := by
  cases e <;> rfl

@[simp] theorem PerEnv.get_set_other {α : Type} (x : PerEnv α) {e e' : EnvIx} (a : α) (h : e' ≠ e) :
    (x.set e a).get e' = x.get e' := by
  cases e <;> cases e' <;> first | rfl | exact absurd rfl h

@[simp] theorem PerPulse.get_set_same {α : Type} (x : PerPulse α) (p : PulseIx) (a : α) : (x.set p a).get p = a := by
  cases p <;> rfl

@[simp] theorem PerPulse.get_set_other {α : Type} (x : PerPulse α) {p p' : PulseIx} (a : α) (h : p' ≠ p) :
    (x.set p a).get p' = x.get p' := by
  cases p <;> cases p' <;> first | rfl | exact absurd rfl h

/-- Two things per channel are equal when they read equal at every channel. -/
theorem PerChan.ext_get {α : Type} {x y : PerChan α} (h : ∀ ch, x.get ch = y.get ch) : x = y := by
  cases x; cases y
  have h0 := h .pulse0; have h1 := h .pulse1; have h2 := h .tri; have h3 := h .noise
  simp_all [PerChan.get]

/-! ### `raise` -/

@[simp] theorem raise_cfg (f : Fault) (s : State) :
    (raise f s).cfg = s.cfg := rfl
@[simp] theorem raise_env (f : Fault) (s : State) :
    (raise f s).env = s.env := rfl
@[simp] theorem raise_sweep (f : Fault) (s : State) :
    (raise f s).sweep = s.sweep := rfl
@[simp] theorem raise_length (f : Fault) (s : State) :
    (raise f s).length = s.length := rfl
@[simp] theorem raise_lenEnable (f : Fault) (s : State) :
    (raise f s).lenEnable = s.lenEnable := rfl
@[simp] theorem raise_tri (f : Fault) (s : State) :
    (raise f s).tri = s.tri := rfl
@[simp] theorem raise_noise (f : Fault) (s : State) :
    (raise f s).noise = s.noise := rfl
@[simp] theorem raise_dmc (f : Fault) (s : State) :
    (raise f s).dmc = s.dmc := rfl
@[simp] theorem raise_seq (f : Fault) (s : State) :
    (raise f s).seq = s.seq := rfl
@[simp] theorem raise_cache (f : Fault) (s : State) :
    (raise f s).cache = s.cache := rfl
@[simp] theorem raise_pending (f : Fault) (s : State) :
    (raise f s).pending = s.pending := rfl
@[simp] theorem raise_pendingCtrl (f : Fault) (s : State) :
    (raise f s).pendingCtrl = s.pendingCtrl := rfl
@[simp] theorem raise_pendingSample (f : Fault) (s : State) :
    (raise f s).pendingSample = s.pendingSample := rfl
@[simp] theorem raise_writeCursor (f : Fault) (s : State) :
    (raise f s).writeCursor = s.writeCursor := rfl
@[simp] theorem raise_offset (f : Fault) (s : State) :
    (raise f s).offset = s.offset := rfl
@[simp] theorem raise_lastTs (f : Fault) (s : State) :
    (raise f s).lastTs = s.lastTs := rfl
@[simp] theorem raise_eofWait (f : Fault) (s : State) :
    (raise f s).eofWait = s.eofWait := rfl
@[simp] theorem raise_fault (f : Fault) (s : State) :
    (raise f s).fault = some f := rfl
@[simp] theorem raise_mem (f : Fault) (s : State) :
    (raise f s).mem = s.mem := rfl
@[simp] theorem raise_slots (f : Fault) (s : State) :
    (raise f s).slots = s.slots := rfl
@[simp] theorem raise_deltas (f : Fault) (s : State) :
    (raise f s).deltas = s.deltas := rfl
@[simp] theorem raise_readPos (f : Fault) (s : State) :
    (raise f s).readPos = s.readPos := rfl
@[simp] theorem raise_events (f : Fault) (s : State) :
    (raise f s).events = s.events := rfl
@[simp] theorem raise_cmds (f : Fault) (s : State) :
    (raise f s).cmds = s.cmds := rfl
@[simp] theorem raise_turns (f : Fault) (s : State) :
    (raise f s).turns = s.turns := rfl

/-! ### `report` -/

@[simp] theorem report_cfg (e : Event) (s : State) :
    (report e s).cfg = s.cfg := rfl
@[simp] theorem report_env (e : Event) (s : State) :
    (report e s).env = s.env := rfl
@[simp] theorem report_sweep (e : Event) (s : State) :
    (report e s).sweep = s.sweep := rfl
@[simp] theorem report_length (e : Event) (s : State) :
    (report e s).length = s.length := rfl
@[simp] theorem report_lenEnable (e : Event) (s : State) :
    (report e s).lenEnable = s.lenEnable := rfl
@[simp] theorem report_tri (e : Event) (s : State) :
    (report e s).tri = s.tri := rfl
@[simp] theorem report_noise (e : Event) (s : State) :
    (report e s).noise = s.noise := rfl
@[simp] theorem report_dmc (e : Event) (s : State) :
    (report e s).dmc = s.dmc := rfl
@[simp] theorem report_seq (e : Event) (s : State) :
    (report e s).seq = s.seq := rfl
@[simp] theorem report_cache (e : Event) (s : State) :
    (report e s).cache = s.cache := rfl
@[simp] theorem report_pending (e : Event) (s : State) :
    (report e s).pending = s.pending := rfl
@[simp] theorem report_pendingCtrl (e : Event) (s : State) :
    (report e s).pendingCtrl = s.pendingCtrl := rfl
@[simp] theorem report_pendingSample (e : Event) (s : State) :
    (report e s).pendingSample = s.pendingSample := rfl
@[simp] theorem report_writeCursor (e : Event) (s : State) :
    (report e s).writeCursor = s.writeCursor := rfl
@[simp] theorem report_offset (e : Event) (s : State) :
    (report e s).offset = s.offset := rfl
@[simp] theorem report_lastTs (e : Event) (s : State) :
    (report e s).lastTs = s.lastTs := rfl
@[simp] theorem report_eofWait (e : Event) (s : State) :
    (report e s).eofWait = s.eofWait := rfl
@[simp] theorem report_fault (e : Event) (s : State) :
    (report e s).fault = s.fault := rfl
@[simp] theorem report_mem (e : Event) (s : State) :
    (report e s).mem = s.mem := rfl
@[simp] theorem report_slots (e : Event) (s : State) :
    (report e s).slots = s.slots := rfl
@[simp] theorem report_deltas (e : Event) (s : State) :
    (report e s).deltas = s.deltas := rfl
@[simp] theorem report_readPos (e : Event) (s : State) :
    (report e s).readPos = s.readPos := rfl
@[simp] theorem report_events (e : Event) (s : State) :
    (report e s).events = s.events ++ [e] := rfl
@[simp] theorem report_cmds (e : Event) (s : State) :
    (report e s).cmds = s.cmds := rfl
@[simp] theorem report_turns (e : Event) (s : State) :
    (report e s).turns = s.turns := rfl

/-! ### `recordFetch` -/

@[simp] theorem recordFetch_cfg (a : Word16) (s : State) :
    (recordFetch a s).cfg = s.cfg := rfl
@[simp] theorem recordFetch_env (a : Word16) (s : State) :
    (recordFetch a s).env = s.env := rfl
@[simp] theorem recordFetch_sweep (a : Word16) (s : State) :
    (recordFetch a s).sweep = s.sweep := rfl
@[simp] theorem recordFetch_length (a : Word16) (s : State) :
    (recordFetch a s).length = s.length := rfl
@[simp] theorem recordFetch_lenEnable (a : Word16) (s : State) :
    (recordFetch a s).lenEnable = s.lenEnable := rfl
@[simp] theorem recordFetch_tri (a : Word16) (s : State) :
    (recordFetch a s).tri = s.tri := rfl
@[simp] theorem recordFetch_noise (a : Word16) (s : State) :
    (recordFetch a s).noise = s.noise := rfl
@[simp] theorem recordFetch_dmc (a : Word16) (s : State) :
    (recordFetch a s).dmc = s.dmc := rfl
@[simp] theorem recordFetch_seq (a : Word16) (s : State) :
    (recordFetch a s).seq = s.seq := rfl
@[simp] theorem recordFetch_cache (a : Word16) (s : State) :
    (recordFetch a s).cache = s.cache := rfl
@[simp] theorem recordFetch_pending (a : Word16) (s : State) :
    (recordFetch a s).pending = s.pending := rfl
@[simp] theorem recordFetch_pendingCtrl (a : Word16) (s : State) :
    (recordFetch a s).pendingCtrl = s.pendingCtrl := rfl
@[simp] theorem recordFetch_pendingSample (a : Word16) (s : State) :
    (recordFetch a s).pendingSample = s.pendingSample := rfl
@[simp] theorem recordFetch_writeCursor (a : Word16) (s : State) :
    (recordFetch a s).writeCursor = s.writeCursor := rfl
@[simp] theorem recordFetch_offset (a : Word16) (s : State) :
    (recordFetch a s).offset = s.offset := rfl
@[simp] theorem recordFetch_lastTs (a : Word16) (s : State) :
    (recordFetch a s).lastTs = s.lastTs := rfl
@[simp] theorem recordFetch_eofWait (a : Word16) (s : State) :
    (recordFetch a s).eofWait = s.eofWait := rfl
@[simp] theorem recordFetch_fault (a : Word16) (s : State) :
    (recordFetch a s).fault = s.fault := rfl
@[simp] theorem recordFetch_mem (a : Word16) (s : State) :
    (recordFetch a s).mem = s.mem := rfl
@[simp] theorem recordFetch_slots (a : Word16) (s : State) :
    (recordFetch a s).slots = s.slots := rfl
@[simp] theorem recordFetch_deltas (a : Word16) (s : State) :
    (recordFetch a s).deltas = s.deltas := rfl
@[simp] theorem recordFetch_readPos (a : Word16) (s : State) :
    (recordFetch a s).readPos = s.readPos := rfl
@[simp] theorem recordFetch_events (a : Word16) (s : State) :
    (recordFetch a s).events = s.events ++ [.fetch a (sampleAt a s)] := rfl
@[simp] theorem recordFetch_cmds (a : Word16) (s : State) :
    (recordFetch a s).cmds = s.cmds := rfl
@[simp] theorem recordFetch_turns (a : Word16) (s : State) :
    (recordFetch a s).turns = s.turns := rfl

/-! ### `slotWrite` -/

@[simp] theorem slotWrite_cfg (k : Nat) (r : Slot) (s : State) :
    (slotWrite k r s).cfg = s.cfg := rfl
@[simp] theorem slotWrite_env (k : Nat) (r : Slot) (s : State) :
    (slotWrite k r s).env = s.env := rfl
@[simp] theorem slotWrite_sweep (k : Nat) (r : Slot) (s : State) :
    (slotWrite k r s).sweep = s.sweep := rfl
@[simp] theorem slotWrite_length (k : Nat) (r : Slot) (s : State) :
    (slotWrite k r s).length = s.length := rfl
@[simp] theorem slotWrite_lenEnable (k : Nat) (r : Slot) (s : State) :
    (slotWrite k r s).lenEnable = s.lenEnable := rfl
@[simp] theorem slotWrite_tri (k : Nat) (r : Slot) (s : State) :
    (slotWrite k r s).tri = s.tri := rfl
@[simp] theorem slotWrite_noise (k : Nat) (r : Slot) (s : State) :
    (slotWrite k r s).noise = s.noise := rfl
@[simp] theorem slotWrite_dmc (k : Nat) (r : Slot) (s : State) :
    (slotWrite k r s).dmc = s.dmc := rfl
@[simp] theorem slotWrite_seq (k : Nat) (r : Slot) (s : State) :
    (slotWrite k r s).seq = s.seq := rfl
@[simp] theorem slotWrite_cache (k : Nat) (r : Slot) (s : State) :
    (slotWrite k r s).cache = s.cache := rfl
@[simp] theorem slotWrite_pending (k : Nat) (r : Slot) (s : State) :
    (slotWrite k r s).pending = s.pending := rfl
@[simp] theorem slotWrite_pendingCtrl (k : Nat) (r : Slot) (s : State) :
    (slotWrite k r s).pendingCtrl = s.pendingCtrl := rfl
@[simp] theorem slotWrite_pendingSample (k : Nat) (r : Slot) (s : State) :
    (slotWrite k r s).pendingSample = s.pendingSample := rfl
@[simp] theorem slotWrite_writeCursor (k : Nat) (r : Slot) (s : State) :
    (slotWrite k r s).writeCursor = s.writeCursor := rfl
@[simp] theorem slotWrite_offset (k : Nat) (r : Slot) (s : State) :
    (slotWrite k r s).offset = s.offset := rfl
@[simp] theorem slotWrite_lastTs (k : Nat) (r : Slot) (s : State) :
    (slotWrite k r s).lastTs = s.lastTs := rfl
@[simp] theorem slotWrite_eofWait (k : Nat) (r : Slot) (s : State) :
    (slotWrite k r s).eofWait = s.eofWait := rfl
@[simp] theorem slotWrite_fault (k : Nat) (r : Slot) (s : State) :
    (slotWrite k r s).fault = s.fault := rfl
@[simp] theorem slotWrite_mem (k : Nat) (r : Slot) (s : State) :
    (slotWrite k r s).mem = s.mem := rfl
@[simp] theorem slotWrite_slots (k : Nat) (r : Slot) (s : State) :
    (slotWrite k r s).slots = sparsePut k r s.slots := rfl
@[simp] theorem slotWrite_deltas (k : Nat) (r : Slot) (s : State) :
    (slotWrite k r s).deltas = s.deltas := rfl
@[simp] theorem slotWrite_readPos (k : Nat) (r : Slot) (s : State) :
    (slotWrite k r s).readPos = s.readPos := rfl
@[simp] theorem slotWrite_events (k : Nat) (r : Slot) (s : State) :
    (slotWrite k r s).events = s.events ++ [.slot k r] := rfl
@[simp] theorem slotWrite_cmds (k : Nat) (r : Slot) (s : State) :
    (slotWrite k r s).cmds = s.cmds := rfl
@[simp] theorem slotWrite_turns (k : Nat) (r : Slot) (s : State) :
    (slotWrite k r s).turns = s.turns := rfl

/-! ### `deltaWrite` -/

@[simp] theorem deltaWrite_cfg (i : Nat) (v : Int) (s : State) :
    (deltaWrite i v s).cfg = s.cfg := rfl
@[simp] theorem deltaWrite_env (i : Nat) (v : Int) (s : State) :
    (deltaWrite i v s).env = s.env := rfl
@[simp] theorem deltaWrite_sweep (i : Nat) (v : Int) (s : State) :
    (deltaWrite i v s).sweep = s.sweep := rfl
@[simp] theorem deltaWrite_length (i : Nat) (v : Int) (s : State) :
    (deltaWrite i v s).length = s.length := rfl
@[simp] theorem deltaWrite_lenEnable (i : Nat) (v : Int) (s : State) :
    (deltaWrite i v s).lenEnable = s.lenEnable := rfl
@[simp] theorem deltaWrite_tri (i : Nat) (v : Int) (s : State) :
    (deltaWrite i v s).tri = s.tri := rfl
@[simp] theorem deltaWrite_noise (i : Nat) (v : Int) (s : State) :
    (deltaWrite i v s).noise = s.noise := rfl
@[simp] theorem deltaWrite_dmc (i : Nat) (v : Int) (s : State) :
    (deltaWrite i v s).dmc = s.dmc := rfl
@[simp] theorem deltaWrite_seq (i : Nat) (v : Int) (s : State) :
    (deltaWrite i v s).seq = s.seq := rfl
@[simp] theorem deltaWrite_cache (i : Nat) (v : Int) (s : State) :
    (deltaWrite i v s).cache = s.cache := rfl
@[simp] theorem deltaWrite_pending (i : Nat) (v : Int) (s : State) :
    (deltaWrite i v s).pending = s.pending := rfl
@[simp] theorem deltaWrite_pendingCtrl (i : Nat) (v : Int) (s : State) :
    (deltaWrite i v s).pendingCtrl = s.pendingCtrl := rfl
@[simp] theorem deltaWrite_pendingSample (i : Nat) (v : Int) (s : State) :
    (deltaWrite i v s).pendingSample = s.pendingSample := rfl
@[simp] theorem deltaWrite_writeCursor (i : Nat) (v : Int) (s : State) :
    (deltaWrite i v s).writeCursor = s.writeCursor := rfl
@[simp] theorem deltaWrite_offset (i : Nat) (v : Int) (s : State) :
    (deltaWrite i v s).offset = s.offset := rfl
@[simp] theorem deltaWrite_lastTs (i : Nat) (v : Int) (s : State) :
    (deltaWrite i v s).lastTs = s.lastTs := rfl
@[simp] theorem deltaWrite_eofWait (i : Nat) (v : Int) (s : State) :
    (deltaWrite i v s).eofWait = s.eofWait := rfl
@[simp] theorem deltaWrite_fault (i : Nat) (v : Int) (s : State) :
    (deltaWrite i v s).fault = s.fault := rfl
@[simp] theorem deltaWrite_mem (i : Nat) (v : Int) (s : State) :
    (deltaWrite i v s).mem = s.mem := rfl
@[simp] theorem deltaWrite_slots (i : Nat) (v : Int) (s : State) :
    (deltaWrite i v s).slots = s.slots := rfl
@[simp] theorem deltaWrite_deltas (i : Nat) (v : Int) (s : State) :
    (deltaWrite i v s).deltas = deltaPut i v s.deltas := rfl
@[simp] theorem deltaWrite_readPos (i : Nat) (v : Int) (s : State) :
    (deltaWrite i v s).readPos = s.readPos := rfl
@[simp] theorem deltaWrite_events (i : Nat) (v : Int) (s : State) :
    (deltaWrite i v s).events = s.events ++ [.delta i v] := rfl
@[simp] theorem deltaWrite_cmds (i : Nat) (v : Int) (s : State) :
    (deltaWrite i v s).cmds = s.cmds := rfl
@[simp] theorem deltaWrite_turns (i : Nat) (v : Int) (s : State) :
    (deltaWrite i v s).turns = s.turns := rfl

/-! ### `pinSample` -/

@[simp] theorem pinSample_cfg (a : Word16) (b : Byte) (s : State) :
    (pinSample a b s).cfg = s.cfg := rfl
@[simp] theorem pinSample_env (a : Word16) (b : Byte) (s : State) :
    (pinSample a b s).env = s.env := rfl
@[simp] theorem pinSample_sweep (a : Word16) (b : Byte) (s : State) :
    (pinSample a b s).sweep = s.sweep := rfl
@[simp] theorem pinSample_length (a : Word16) (b : Byte) (s : State) :
    (pinSample a b s).length = s.length := rfl
@[simp] theorem pinSample_lenEnable (a : Word16) (b : Byte) (s : State) :
    (pinSample a b s).lenEnable = s.lenEnable := rfl
@[simp] theorem pinSample_tri (a : Word16) (b : Byte) (s : State) :
    (pinSample a b s).tri = s.tri := rfl
@[simp] theorem pinSample_noise (a : Word16) (b : Byte) (s : State) :
    (pinSample a b s).noise = s.noise := rfl
@[simp] theorem pinSample_dmc (a : Word16) (b : Byte) (s : State) :
    (pinSample a b s).dmc = s.dmc := rfl
@[simp] theorem pinSample_seq (a : Word16) (b : Byte) (s : State) :
    (pinSample a b s).seq = s.seq := rfl
@[simp] theorem pinSample_cache (a : Word16) (b : Byte) (s : State) :
    (pinSample a b s).cache = s.cache := rfl
@[simp] theorem pinSample_pending (a : Word16) (b : Byte) (s : State) :
    (pinSample a b s).pending = s.pending := rfl
@[simp] theorem pinSample_pendingCtrl (a : Word16) (b : Byte) (s : State) :
    (pinSample a b s).pendingCtrl = s.pendingCtrl := rfl
@[simp] theorem pinSample_pendingSample (a : Word16) (b : Byte) (s : State) :
    (pinSample a b s).pendingSample = s.pendingSample := rfl
@[simp] theorem pinSample_writeCursor (a : Word16) (b : Byte) (s : State) :
    (pinSample a b s).writeCursor = s.writeCursor := rfl
@[simp] theorem pinSample_offset (a : Word16) (b : Byte) (s : State) :
    (pinSample a b s).offset = s.offset := rfl
@[simp] theorem pinSample_lastTs (a : Word16) (b : Byte) (s : State) :
    (pinSample a b s).lastTs = s.lastTs := rfl
@[simp] theorem pinSample_eofWait (a : Word16) (b : Byte) (s : State) :
    (pinSample a b s).eofWait = s.eofWait := rfl
@[simp] theorem pinSample_fault (a : Word16) (b : Byte) (s : State) :
    (pinSample a b s).fault = s.fault := rfl
@[simp] theorem pinSample_mem (a : Word16) (b : Byte) (s : State) :
    (pinSample a b s).mem = sparsePut a.toNat b s.mem := rfl
@[simp] theorem pinSample_slots (a : Word16) (b : Byte) (s : State) :
    (pinSample a b s).slots = s.slots := rfl
@[simp] theorem pinSample_deltas (a : Word16) (b : Byte) (s : State) :
    (pinSample a b s).deltas = s.deltas := rfl
@[simp] theorem pinSample_readPos (a : Word16) (b : Byte) (s : State) :
    (pinSample a b s).readPos = s.readPos := rfl
@[simp] theorem pinSample_events (a : Word16) (b : Byte) (s : State) :
    (pinSample a b s).events = s.events := rfl
@[simp] theorem pinSample_cmds (a : Word16) (b : Byte) (s : State) :
    (pinSample a b s).cmds = s.cmds := rfl
@[simp] theorem pinSample_turns (a : Word16) (b : Byte) (s : State) :
    (pinSample a b s).turns = s.turns := rfl

/-! ### `flush` -/

@[simp] theorem flush_cfg (s : State) :
    (flush s).cfg = s.cfg := rfl
@[simp] theorem flush_env (s : State) :
    (flush s).env = s.env := rfl
@[simp] theorem flush_sweep (s : State) :
    (flush s).sweep = s.sweep := rfl
@[simp] theorem flush_length (s : State) :
    (flush s).length = s.length := rfl
@[simp] theorem flush_lenEnable (s : State) :
    (flush s).lenEnable = s.lenEnable := rfl
@[simp] theorem flush_tri (s : State) :
    (flush s).tri = s.tri := rfl
@[simp] theorem flush_noise (s : State) :
    (flush s).noise = s.noise := rfl
@[simp] theorem flush_dmc (s : State) :
    (flush s).dmc = s.dmc := rfl
@[simp] theorem flush_seq (s : State) :
    (flush s).seq = s.seq := rfl
@[simp] theorem flush_cache (s : State) :
    (flush s).cache = s.cache := rfl
@[simp] theorem flush_pending (s : State) :
    (flush s).pending = s.pending := rfl
@[simp] theorem flush_pendingCtrl (s : State) :
    (flush s).pendingCtrl = 0 := rfl
@[simp] theorem flush_pendingSample (s : State) :
    (flush s).pendingSample = s.pendingSample := rfl
@[simp] theorem flush_writeCursor (s : State) :
    (flush s).writeCursor = (s.writeCursor + 1) % s.cfg.nslots := rfl
@[simp] theorem flush_offset (s : State) :
    (flush s).offset = s.offset := rfl
@[simp] theorem flush_lastTs (s : State) :
    (flush s).lastTs = s.lastTs := rfl
@[simp] theorem flush_eofWait (s : State) :
    (flush s).eofWait = s.eofWait := rfl
@[simp] theorem flush_fault (s : State) :
    (flush s).fault = s.fault := rfl
@[simp] theorem flush_mem (s : State) :
    (flush s).mem = s.mem := rfl
@[simp] theorem flush_slots (s : State) :
    (flush s).slots = sparsePut s.writeCursor (pendingSlot s) s.slots := rfl
@[simp] theorem flush_deltas (s : State) :
    (flush s).deltas = s.deltas := rfl
@[simp] theorem flush_readPos (s : State) :
    (flush s).readPos = s.readPos := rfl
@[simp] theorem flush_events (s : State) :
    (flush s).events = s.events ++ [.slot s.writeCursor (pendingSlot s)] := rfl
@[simp] theorem flush_cmds (s : State) :
    (flush s).cmds = s.cmds := rfl
@[simp] theorem flush_turns (s : State) :
    (flush s).turns = s.turns := rfl

/-! ### `rebuild` -/

@[simp] theorem rebuild_cfg (i : Nat) (s : State) :
    (rebuild i s).cfg = s.cfg := rfl
@[simp] theorem rebuild_env (i : Nat) (s : State) :
    (rebuild i s).env = s.env := rfl
@[simp] theorem rebuild_sweep (i : Nat) (s : State) :
    (rebuild i s).sweep = s.sweep := rfl
@[simp] theorem rebuild_length (i : Nat) (s : State) :
    (rebuild i s).length = s.length := rfl
@[simp] theorem rebuild_lenEnable (i : Nat) (s : State) :
    (rebuild i s).lenEnable = s.lenEnable := rfl
@[simp] theorem rebuild_tri (i : Nat) (s : State) :
    (rebuild i s).tri = s.tri := rfl
@[simp] theorem rebuild_noise (i : Nat) (s : State) :
    (rebuild i s).noise = s.noise := rfl
@[simp] theorem rebuild_dmc (i : Nat) (s : State) :
    (rebuild i s).dmc = s.dmc := rfl
@[simp] theorem rebuild_seq (i : Nat) (s : State) :
    (rebuild i s).seq = s.seq := rfl
@[simp] theorem rebuild_cache (i : Nat) (s : State) :
    (rebuild i s).cache = s.cache := rfl
@[simp] theorem rebuild_pending (i : Nat) (s : State) :
    (rebuild i s).pending = staged s := rfl
@[simp] theorem rebuild_pendingCtrl (i : Nat) (s : State) :
    (rebuild i s).pendingCtrl = s.pendingCtrl := rfl
@[simp] theorem rebuild_pendingSample (i : Nat) (s : State) :
    (rebuild i s).pendingSample = i := rfl
@[simp] theorem rebuild_writeCursor (i : Nat) (s : State) :
    (rebuild i s).writeCursor = s.writeCursor := rfl
@[simp] theorem rebuild_offset (i : Nat) (s : State) :
    (rebuild i s).offset = s.offset := rfl
@[simp] theorem rebuild_lastTs (i : Nat) (s : State) :
    (rebuild i s).lastTs = s.lastTs := rfl
@[simp] theorem rebuild_eofWait (i : Nat) (s : State) :
    (rebuild i s).eofWait = s.eofWait := rfl
@[simp] theorem rebuild_fault (i : Nat) (s : State) :
    (rebuild i s).fault = s.fault := rfl
@[simp] theorem rebuild_mem (i : Nat) (s : State) :
    (rebuild i s).mem = s.mem := rfl
@[simp] theorem rebuild_slots (i : Nat) (s : State) :
    (rebuild i s).slots = s.slots := rfl
@[simp] theorem rebuild_deltas (i : Nat) (s : State) :
    (rebuild i s).deltas = s.deltas := rfl
@[simp] theorem rebuild_readPos (i : Nat) (s : State) :
    (rebuild i s).readPos = s.readPos := rfl
@[simp] theorem rebuild_events (i : Nat) (s : State) :
    (rebuild i s).events = s.events := rfl
@[simp] theorem rebuild_cmds (i : Nat) (s : State) :
    (rebuild i s).cmds = s.cmds := rfl
@[simp] theorem rebuild_turns (i : Nat) (s : State) :
    (rebuild i s).turns = s.turns := rfl

/-! ### `stageCtrl` -/

@[simp] theorem stageCtrl_cfg (b : Byte) (s : State) :
    (stageCtrl b s).cfg = s.cfg := rfl
@[simp] theorem stageCtrl_env (b : Byte) (s : State) :
    (stageCtrl b s).env = s.env := rfl
@[simp] theorem stageCtrl_sweep (b : Byte) (s : State) :
    (stageCtrl b s).sweep = s.sweep := rfl
@[simp] theorem stageCtrl_length (b : Byte) (s : State) :
    (stageCtrl b s).length = s.length := rfl
@[simp] theorem stageCtrl_lenEnable (b : Byte) (s : State) :
    (stageCtrl b s).lenEnable = s.lenEnable := rfl
@[simp] theorem stageCtrl_tri (b : Byte) (s : State) :
    (stageCtrl b s).tri = s.tri := rfl
@[simp] theorem stageCtrl_noise (b : Byte) (s : State) :
    (stageCtrl b s).noise = s.noise := rfl
@[simp] theorem stageCtrl_dmc (b : Byte) (s : State) :
    (stageCtrl b s).dmc = s.dmc := rfl
@[simp] theorem stageCtrl_seq (b : Byte) (s : State) :
    (stageCtrl b s).seq = s.seq := rfl
@[simp] theorem stageCtrl_cache (b : Byte) (s : State) :
    (stageCtrl b s).cache = s.cache := rfl
@[simp] theorem stageCtrl_pending (b : Byte) (s : State) :
    (stageCtrl b s).pending = s.pending := rfl
@[simp] theorem stageCtrl_pendingCtrl (b : Byte) (s : State) :
    (stageCtrl b s).pendingCtrl = s.pendingCtrl ||| b := rfl
@[simp] theorem stageCtrl_pendingSample (b : Byte) (s : State) :
    (stageCtrl b s).pendingSample = s.pendingSample := rfl
@[simp] theorem stageCtrl_writeCursor (b : Byte) (s : State) :
    (stageCtrl b s).writeCursor = s.writeCursor := rfl
@[simp] theorem stageCtrl_offset (b : Byte) (s : State) :
    (stageCtrl b s).offset = s.offset := rfl
@[simp] theorem stageCtrl_lastTs (b : Byte) (s : State) :
    (stageCtrl b s).lastTs = s.lastTs := rfl
@[simp] theorem stageCtrl_eofWait (b : Byte) (s : State) :
    (stageCtrl b s).eofWait = s.eofWait := rfl
@[simp] theorem stageCtrl_fault (b : Byte) (s : State) :
    (stageCtrl b s).fault = s.fault := rfl
@[simp] theorem stageCtrl_mem (b : Byte) (s : State) :
    (stageCtrl b s).mem = s.mem := rfl
@[simp] theorem stageCtrl_slots (b : Byte) (s : State) :
    (stageCtrl b s).slots = s.slots := rfl
@[simp] theorem stageCtrl_deltas (b : Byte) (s : State) :
    (stageCtrl b s).deltas = s.deltas := rfl
@[simp] theorem stageCtrl_readPos (b : Byte) (s : State) :
    (stageCtrl b s).readPos = s.readPos := rfl
@[simp] theorem stageCtrl_events (b : Byte) (s : State) :
    (stageCtrl b s).events = s.events := rfl
@[simp] theorem stageCtrl_cmds (b : Byte) (s : State) :
    (stageCtrl b s).cmds = s.cmds := rfl
@[simp] theorem stageCtrl_turns (b : Byte) (s : State) :
    (stageCtrl b s).turns = s.turns := rfl

/-! ### `refreshVolume` -/

@[simp] theorem refreshVolume_cfg (e : EnvIx) (s : State) :
    (refreshVolume e s).cfg = s.cfg := rfl
@[simp] theorem refreshVolume_env (e : EnvIx) (s : State) :
    (refreshVolume e s).env = s.env := rfl
@[simp] theorem refreshVolume_sweep (e : EnvIx) (s : State) :
    (refreshVolume e s).sweep = s.sweep := rfl
@[simp] theorem refreshVolume_length (e : EnvIx) (s : State) :
    (refreshVolume e s).length = s.length := rfl
@[simp] theorem refreshVolume_lenEnable (e : EnvIx) (s : State) :
    (refreshVolume e s).lenEnable = s.lenEnable := rfl
@[simp] theorem refreshVolume_tri (e : EnvIx) (s : State) :
    (refreshVolume e s).tri = s.tri := rfl
@[simp] theorem refreshVolume_noise (e : EnvIx) (s : State) :
    (refreshVolume e s).noise = s.noise := rfl
@[simp] theorem refreshVolume_dmc (e : EnvIx) (s : State) :
    (refreshVolume e s).dmc = s.dmc := rfl
@[simp] theorem refreshVolume_seq (e : EnvIx) (s : State) :
    (refreshVolume e s).seq = s.seq := rfl
@[simp] theorem refreshVolume_cache (e : EnvIx) (s : State) :
    (refreshVolume e s).cache = s.cache.set e.chan (setField (s.cache.get e.chan) 0 (volume (s.env.get e))) := rfl
@[simp] theorem refreshVolume_pending (e : EnvIx) (s : State) :
    (refreshVolume e s).pending = s.pending := rfl
@[simp] theorem refreshVolume_pendingCtrl (e : EnvIx) (s : State) :
    (refreshVolume e s).pendingCtrl = s.pendingCtrl := rfl
@[simp] theorem refreshVolume_pendingSample (e : EnvIx) (s : State) :
    (refreshVolume e s).pendingSample = s.pendingSample := rfl
@[simp] theorem refreshVolume_writeCursor (e : EnvIx) (s : State) :
    (refreshVolume e s).writeCursor = s.writeCursor := rfl
@[simp] theorem refreshVolume_offset (e : EnvIx) (s : State) :
    (refreshVolume e s).offset = s.offset := rfl
@[simp] theorem refreshVolume_lastTs (e : EnvIx) (s : State) :
    (refreshVolume e s).lastTs = s.lastTs := rfl
@[simp] theorem refreshVolume_eofWait (e : EnvIx) (s : State) :
    (refreshVolume e s).eofWait = s.eofWait := rfl
@[simp] theorem refreshVolume_fault (e : EnvIx) (s : State) :
    (refreshVolume e s).fault = s.fault := rfl
@[simp] theorem refreshVolume_mem (e : EnvIx) (s : State) :
    (refreshVolume e s).mem = s.mem := rfl
@[simp] theorem refreshVolume_slots (e : EnvIx) (s : State) :
    (refreshVolume e s).slots = s.slots := rfl
@[simp] theorem refreshVolume_deltas (e : EnvIx) (s : State) :
    (refreshVolume e s).deltas = s.deltas := rfl
@[simp] theorem refreshVolume_readPos (e : EnvIx) (s : State) :
    (refreshVolume e s).readPos = s.readPos := rfl
@[simp] theorem refreshVolume_events (e : EnvIx) (s : State) :
    (refreshVolume e s).events = s.events := rfl
@[simp] theorem refreshVolume_cmds (e : EnvIx) (s : State) :
    (refreshVolume e s).cmds = s.cmds := rfl
@[simp] theorem refreshVolume_turns (e : EnvIx) (s : State) :
    (refreshVolume e s).turns = s.turns := rfl

/-! ### `clockLength` -/

@[simp] theorem clockLength_cfg (ch : Chan) (s : State) :
    (clockLength ch s).cfg = s.cfg := rfl
@[simp] theorem clockLength_env (ch : Chan) (s : State) :
    (clockLength ch s).env = s.env := rfl
@[simp] theorem clockLength_sweep (ch : Chan) (s : State) :
    (clockLength ch s).sweep = s.sweep := rfl
@[simp] theorem clockLength_length (ch : Chan) (s : State) :
    (clockLength ch s).length = s.length.set ch (lengthClocked (halted ch s) (s.length.get ch)) := rfl
@[simp] theorem clockLength_lenEnable (ch : Chan) (s : State) :
    (clockLength ch s).lenEnable = s.lenEnable := rfl
@[simp] theorem clockLength_tri (ch : Chan) (s : State) :
    (clockLength ch s).tri = s.tri := rfl
@[simp] theorem clockLength_noise (ch : Chan) (s : State) :
    (clockLength ch s).noise = s.noise := rfl
@[simp] theorem clockLength_dmc (ch : Chan) (s : State) :
    (clockLength ch s).dmc = s.dmc := rfl
@[simp] theorem clockLength_seq (ch : Chan) (s : State) :
    (clockLength ch s).seq = s.seq := rfl
@[simp] theorem clockLength_cache (ch : Chan) (s : State) :
    (clockLength ch s).cache = s.cache := rfl
@[simp] theorem clockLength_pending (ch : Chan) (s : State) :
    (clockLength ch s).pending = s.pending := rfl
@[simp] theorem clockLength_pendingCtrl (ch : Chan) (s : State) :
    (clockLength ch s).pendingCtrl = s.pendingCtrl := rfl
@[simp] theorem clockLength_pendingSample (ch : Chan) (s : State) :
    (clockLength ch s).pendingSample = s.pendingSample := rfl
@[simp] theorem clockLength_writeCursor (ch : Chan) (s : State) :
    (clockLength ch s).writeCursor = s.writeCursor := rfl
@[simp] theorem clockLength_offset (ch : Chan) (s : State) :
    (clockLength ch s).offset = s.offset := rfl
@[simp] theorem clockLength_lastTs (ch : Chan) (s : State) :
    (clockLength ch s).lastTs = s.lastTs := rfl
@[simp] theorem clockLength_eofWait (ch : Chan) (s : State) :
    (clockLength ch s).eofWait = s.eofWait := rfl
@[simp] theorem clockLength_fault (ch : Chan) (s : State) :
    (clockLength ch s).fault = s.fault := rfl
@[simp] theorem clockLength_mem (ch : Chan) (s : State) :
    (clockLength ch s).mem = s.mem := rfl
@[simp] theorem clockLength_slots (ch : Chan) (s : State) :
    (clockLength ch s).slots = s.slots := rfl
@[simp] theorem clockLength_deltas (ch : Chan) (s : State) :
    (clockLength ch s).deltas = s.deltas := rfl
@[simp] theorem clockLength_readPos (ch : Chan) (s : State) :
    (clockLength ch s).readPos = s.readPos := rfl
@[simp] theorem clockLength_events (ch : Chan) (s : State) :
    (clockLength ch s).events = s.events := rfl
@[simp] theorem clockLength_cmds (ch : Chan) (s : State) :
    (clockLength ch s).cmds = s.cmds := rfl
@[simp] theorem clockLength_turns (ch : Chan) (s : State) :
    (clockLength ch s).turns = s.turns := rfl

/-! ### `clockLinear` -/

@[simp] theorem clockLinear_cfg (s : State) :
    (clockLinear s).cfg = s.cfg := rfl
@[simp] theorem clockLinear_env (s : State) :
    (clockLinear s).env = s.env := rfl
@[simp] theorem clockLinear_sweep (s : State) :
    (clockLinear s).sweep = s.sweep := rfl
@[simp] theorem clockLinear_length (s : State) :
    (clockLinear s).length = s.length := rfl
@[simp] theorem clockLinear_lenEnable (s : State) :
    (clockLinear s).lenEnable = s.lenEnable := rfl
@[simp] theorem clockLinear_tri (s : State) :
    (clockLinear s).tri = linearClocked s.tri := rfl
@[simp] theorem clockLinear_noise (s : State) :
    (clockLinear s).noise = s.noise := rfl
@[simp] theorem clockLinear_dmc (s : State) :
    (clockLinear s).dmc = s.dmc := rfl
@[simp] theorem clockLinear_seq (s : State) :
    (clockLinear s).seq = s.seq := rfl
@[simp] theorem clockLinear_cache (s : State) :
    (clockLinear s).cache = s.cache := rfl
@[simp] theorem clockLinear_pending (s : State) :
    (clockLinear s).pending = s.pending := rfl
@[simp] theorem clockLinear_pendingCtrl (s : State) :
    (clockLinear s).pendingCtrl = s.pendingCtrl := rfl
@[simp] theorem clockLinear_pendingSample (s : State) :
    (clockLinear s).pendingSample = s.pendingSample := rfl
@[simp] theorem clockLinear_writeCursor (s : State) :
    (clockLinear s).writeCursor = s.writeCursor := rfl
@[simp] theorem clockLinear_offset (s : State) :
    (clockLinear s).offset = s.offset := rfl
@[simp] theorem clockLinear_lastTs (s : State) :
    (clockLinear s).lastTs = s.lastTs := rfl
@[simp] theorem clockLinear_eofWait (s : State) :
    (clockLinear s).eofWait = s.eofWait := rfl
@[simp] theorem clockLinear_fault (s : State) :
    (clockLinear s).fault = s.fault := rfl
@[simp] theorem clockLinear_mem (s : State) :
    (clockLinear s).mem = s.mem := rfl
@[simp] theorem clockLinear_slots (s : State) :
    (clockLinear s).slots = s.slots := rfl
@[simp] theorem clockLinear_deltas (s : State) :
    (clockLinear s).deltas = s.deltas := rfl
@[simp] theorem clockLinear_readPos (s : State) :
    (clockLinear s).readPos = s.readPos := rfl
@[simp] theorem clockLinear_events (s : State) :
    (clockLinear s).events = s.events := rfl
@[simp] theorem clockLinear_cmds (s : State) :
    (clockLinear s).cmds = s.cmds := rfl
@[simp] theorem clockLinear_turns (s : State) :
    (clockLinear s).turns = s.turns := rfl

/-! ### `recomputeTri` -/

@[simp] theorem recomputeTri_cfg (s : State) :
    (recomputeTri s).cfg = s.cfg := rfl
@[simp] theorem recomputeTri_env (s : State) :
    (recomputeTri s).env = s.env := rfl
@[simp] theorem recomputeTri_sweep (s : State) :
    (recomputeTri s).sweep = s.sweep := rfl
@[simp] theorem recomputeTri_length (s : State) :
    (recomputeTri s).length = s.length := rfl
@[simp] theorem recomputeTri_lenEnable (s : State) :
    (recomputeTri s).lenEnable = s.lenEnable := rfl
@[simp] theorem recomputeTri_tri (s : State) :
    (recomputeTri s).tri = s.tri := rfl
@[simp] theorem recomputeTri_noise (s : State) :
    (recomputeTri s).noise = s.noise := rfl
@[simp] theorem recomputeTri_dmc (s : State) :
    (recomputeTri s).dmc = s.dmc := rfl
@[simp] theorem recomputeTri_seq (s : State) :
    (recomputeTri s).seq = s.seq := rfl
@[simp] theorem recomputeTri_cache (s : State) :
    (recomputeTri s).cache = s.cache.set .tri (triWord s) := rfl
@[simp] theorem recomputeTri_pending (s : State) :
    (recomputeTri s).pending = s.pending := rfl
@[simp] theorem recomputeTri_pendingCtrl (s : State) :
    (recomputeTri s).pendingCtrl = s.pendingCtrl := rfl
@[simp] theorem recomputeTri_pendingSample (s : State) :
    (recomputeTri s).pendingSample = s.pendingSample := rfl
@[simp] theorem recomputeTri_writeCursor (s : State) :
    (recomputeTri s).writeCursor = s.writeCursor := rfl
@[simp] theorem recomputeTri_offset (s : State) :
    (recomputeTri s).offset = s.offset := rfl
@[simp] theorem recomputeTri_lastTs (s : State) :
    (recomputeTri s).lastTs = s.lastTs := rfl
@[simp] theorem recomputeTri_eofWait (s : State) :
    (recomputeTri s).eofWait = s.eofWait := rfl
@[simp] theorem recomputeTri_fault (s : State) :
    (recomputeTri s).fault = s.fault := rfl
@[simp] theorem recomputeTri_mem (s : State) :
    (recomputeTri s).mem = s.mem := rfl
@[simp] theorem recomputeTri_slots (s : State) :
    (recomputeTri s).slots = s.slots := rfl
@[simp] theorem recomputeTri_deltas (s : State) :
    (recomputeTri s).deltas = s.deltas := rfl
@[simp] theorem recomputeTri_readPos (s : State) :
    (recomputeTri s).readPos = s.readPos := rfl
@[simp] theorem recomputeTri_events (s : State) :
    (recomputeTri s).events = s.events := rfl
@[simp] theorem recomputeTri_cmds (s : State) :
    (recomputeTri s).cmds = s.cmds := rfl
@[simp] theorem recomputeTri_turns (s : State) :
    (recomputeTri s).turns = s.turns := rfl

/-! ### `armTriDelay` -/

@[simp] theorem armTriDelay_cfg (ts : Nat) (s : State) :
    (armTriDelay ts s).cfg = s.cfg := rfl
@[simp] theorem armTriDelay_env (ts : Nat) (s : State) :
    (armTriDelay ts s).env = s.env := rfl
@[simp] theorem armTriDelay_sweep (ts : Nat) (s : State) :
    (armTriDelay ts s).sweep = s.sweep := rfl
@[simp] theorem armTriDelay_length (ts : Nat) (s : State) :
    (armTriDelay ts s).length = s.length := rfl
@[simp] theorem armTriDelay_lenEnable (ts : Nat) (s : State) :
    (armTriDelay ts s).lenEnable = s.lenEnable := rfl
@[simp] theorem armTriDelay_tri (ts : Nat) (s : State) :
    (armTriDelay ts s).tri = { s.tri with updateAt := some (ts + Config.triDelay) } := rfl
@[simp] theorem armTriDelay_noise (ts : Nat) (s : State) :
    (armTriDelay ts s).noise = s.noise := rfl
@[simp] theorem armTriDelay_dmc (ts : Nat) (s : State) :
    (armTriDelay ts s).dmc = s.dmc := rfl
@[simp] theorem armTriDelay_seq (ts : Nat) (s : State) :
    (armTriDelay ts s).seq = s.seq := rfl
@[simp] theorem armTriDelay_cache (ts : Nat) (s : State) :
    (armTriDelay ts s).cache = s.cache := rfl
@[simp] theorem armTriDelay_pending (ts : Nat) (s : State) :
    (armTriDelay ts s).pending = s.pending := rfl
@[simp] theorem armTriDelay_pendingCtrl (ts : Nat) (s : State) :
    (armTriDelay ts s).pendingCtrl = s.pendingCtrl := rfl
@[simp] theorem armTriDelay_pendingSample (ts : Nat) (s : State) :
    (armTriDelay ts s).pendingSample = s.pendingSample := rfl
@[simp] theorem armTriDelay_writeCursor (ts : Nat) (s : State) :
    (armTriDelay ts s).writeCursor = s.writeCursor := rfl
@[simp] theorem armTriDelay_offset (ts : Nat) (s : State) :
    (armTriDelay ts s).offset = s.offset := rfl
@[simp] theorem armTriDelay_lastTs (ts : Nat) (s : State) :
    (armTriDelay ts s).lastTs = s.lastTs := rfl
@[simp] theorem armTriDelay_eofWait (ts : Nat) (s : State) :
    (armTriDelay ts s).eofWait = s.eofWait := rfl
@[simp] theorem armTriDelay_fault (ts : Nat) (s : State) :
    (armTriDelay ts s).fault = s.fault := rfl
@[simp] theorem armTriDelay_mem (ts : Nat) (s : State) :
    (armTriDelay ts s).mem = s.mem := rfl
@[simp] theorem armTriDelay_slots (ts : Nat) (s : State) :
    (armTriDelay ts s).slots = s.slots := rfl
@[simp] theorem armTriDelay_deltas (ts : Nat) (s : State) :
    (armTriDelay ts s).deltas = s.deltas := rfl
@[simp] theorem armTriDelay_readPos (ts : Nat) (s : State) :
    (armTriDelay ts s).readPos = s.readPos := rfl
@[simp] theorem armTriDelay_events (ts : Nat) (s : State) :
    (armTriDelay ts s).events = s.events := rfl
@[simp] theorem armTriDelay_cmds (ts : Nat) (s : State) :
    (armTriDelay ts s).cmds = s.cmds := rfl
@[simp] theorem armTriDelay_turns (ts : Nat) (s : State) :
    (armTriDelay ts s).turns = s.turns := rfl

/-! ### `scheduleTick` -/

@[simp] theorem scheduleTick_cfg (T : Nat) (s : State) :
    (scheduleTick T s).cfg = s.cfg := rfl
@[simp] theorem scheduleTick_env (T : Nat) (s : State) :
    (scheduleTick T s).env = s.env := rfl
@[simp] theorem scheduleTick_sweep (T : Nat) (s : State) :
    (scheduleTick T s).sweep = s.sweep := rfl
@[simp] theorem scheduleTick_length (T : Nat) (s : State) :
    (scheduleTick T s).length = s.length := rfl
@[simp] theorem scheduleTick_lenEnable (T : Nat) (s : State) :
    (scheduleTick T s).lenEnable = s.lenEnable := rfl
@[simp] theorem scheduleTick_tri (T : Nat) (s : State) :
    (scheduleTick T s).tri = s.tri := rfl
@[simp] theorem scheduleTick_noise (T : Nat) (s : State) :
    (scheduleTick T s).noise = s.noise := rfl
@[simp] theorem scheduleTick_dmc (T : Nat) (s : State) :
    (scheduleTick T s).dmc = s.dmc := rfl
@[simp] theorem scheduleTick_seq (T : Nat) (s : State) :
    (scheduleTick T s).seq = { s.seq with nextTick := T + stepLength s.seq, half := !s.seq.half } := rfl
@[simp] theorem scheduleTick_cache (T : Nat) (s : State) :
    (scheduleTick T s).cache = s.cache := rfl
@[simp] theorem scheduleTick_pending (T : Nat) (s : State) :
    (scheduleTick T s).pending = s.pending := rfl
@[simp] theorem scheduleTick_pendingCtrl (T : Nat) (s : State) :
    (scheduleTick T s).pendingCtrl = s.pendingCtrl := rfl
@[simp] theorem scheduleTick_pendingSample (T : Nat) (s : State) :
    (scheduleTick T s).pendingSample = s.pendingSample := rfl
@[simp] theorem scheduleTick_writeCursor (T : Nat) (s : State) :
    (scheduleTick T s).writeCursor = s.writeCursor := rfl
@[simp] theorem scheduleTick_offset (T : Nat) (s : State) :
    (scheduleTick T s).offset = s.offset := rfl
@[simp] theorem scheduleTick_lastTs (T : Nat) (s : State) :
    (scheduleTick T s).lastTs = s.lastTs := rfl
@[simp] theorem scheduleTick_eofWait (T : Nat) (s : State) :
    (scheduleTick T s).eofWait = s.eofWait := rfl
@[simp] theorem scheduleTick_fault (T : Nat) (s : State) :
    (scheduleTick T s).fault = s.fault := rfl
@[simp] theorem scheduleTick_mem (T : Nat) (s : State) :
    (scheduleTick T s).mem = s.mem := rfl
@[simp] theorem scheduleTick_slots (T : Nat) (s : State) :
    (scheduleTick T s).slots = s.slots := rfl
@[simp] theorem scheduleTick_deltas (T : Nat) (s : State) :
    (scheduleTick T s).deltas = s.deltas := rfl
@[simp] theorem scheduleTick_readPos (T : Nat) (s : State) :
    (scheduleTick T s).readPos = s.readPos := rfl
@[simp] theorem scheduleTick_events (T : Nat) (s : State) :
    (scheduleTick T s).events = s.events := rfl
@[simp] theorem scheduleTick_cmds (T : Nat) (s : State) :
    (scheduleTick T s).cmds = s.cmds := rfl
@[simp] theorem scheduleTick_turns (T : Nat) (s : State) :
    (scheduleTick T s).turns = s.turns := rfl

/-! ### `advanceStep` -/

@[simp] theorem advanceStep_cfg (entry : BitVec 2) (s : State) :
    (advanceStep entry s).cfg = s.cfg := rfl
@[simp] theorem advanceStep_env (entry : BitVec 2) (s : State) :
    (advanceStep entry s).env = s.env := rfl
@[simp] theorem advanceStep_sweep (entry : BitVec 2) (s : State) :
    (advanceStep entry s).sweep = s.sweep := rfl
@[simp] theorem advanceStep_length (entry : BitVec 2) (s : State) :
    (advanceStep entry s).length = s.length := rfl
@[simp] theorem advanceStep_lenEnable (entry : BitVec 2) (s : State) :
    (advanceStep entry s).lenEnable = s.lenEnable := rfl
@[simp] theorem advanceStep_tri (entry : BitVec 2) (s : State) :
    (advanceStep entry s).tri = s.tri := rfl
@[simp] theorem advanceStep_noise (entry : BitVec 2) (s : State) :
    (advanceStep entry s).noise = s.noise := rfl
@[simp] theorem advanceStep_dmc (entry : BitVec 2) (s : State) :
    (advanceStep entry s).dmc = s.dmc := rfl
@[simp] theorem advanceStep_seq (entry : BitVec 2) (s : State) :
    (advanceStep entry s).seq = { s.seq with step := entry + 1 } := rfl
@[simp] theorem advanceStep_cache (entry : BitVec 2) (s : State) :
    (advanceStep entry s).cache = s.cache := rfl
@[simp] theorem advanceStep_pending (entry : BitVec 2) (s : State) :
    (advanceStep entry s).pending = s.pending := rfl
@[simp] theorem advanceStep_pendingCtrl (entry : BitVec 2) (s : State) :
    (advanceStep entry s).pendingCtrl = s.pendingCtrl := rfl
@[simp] theorem advanceStep_pendingSample (entry : BitVec 2) (s : State) :
    (advanceStep entry s).pendingSample = s.pendingSample := rfl
@[simp] theorem advanceStep_writeCursor (entry : BitVec 2) (s : State) :
    (advanceStep entry s).writeCursor = s.writeCursor := rfl
@[simp] theorem advanceStep_offset (entry : BitVec 2) (s : State) :
    (advanceStep entry s).offset = s.offset := rfl
@[simp] theorem advanceStep_lastTs (entry : BitVec 2) (s : State) :
    (advanceStep entry s).lastTs = s.lastTs := rfl
@[simp] theorem advanceStep_eofWait (entry : BitVec 2) (s : State) :
    (advanceStep entry s).eofWait = s.eofWait := rfl
@[simp] theorem advanceStep_fault (entry : BitVec 2) (s : State) :
    (advanceStep entry s).fault = s.fault := rfl
@[simp] theorem advanceStep_mem (entry : BitVec 2) (s : State) :
    (advanceStep entry s).mem = s.mem := rfl
@[simp] theorem advanceStep_slots (entry : BitVec 2) (s : State) :
    (advanceStep entry s).slots = s.slots := rfl
@[simp] theorem advanceStep_deltas (entry : BitVec 2) (s : State) :
    (advanceStep entry s).deltas = s.deltas := rfl
@[simp] theorem advanceStep_readPos (entry : BitVec 2) (s : State) :
    (advanceStep entry s).readPos = s.readPos := rfl
@[simp] theorem advanceStep_events (entry : BitVec 2) (s : State) :
    (advanceStep entry s).events = s.events := rfl
@[simp] theorem advanceStep_cmds (entry : BitVec 2) (s : State) :
    (advanceStep entry s).cmds = s.cmds := rfl
@[simp] theorem advanceStep_turns (entry : BitVec 2) (s : State) :
    (advanceStep entry s).turns = s.turns := rfl

/-! ### `clearFrameFlag` -/

@[simp] theorem clearFrameFlag_cfg (s : State) :
    (clearFrameFlag s).cfg = s.cfg := rfl
@[simp] theorem clearFrameFlag_env (s : State) :
    (clearFrameFlag s).env = s.env := rfl
@[simp] theorem clearFrameFlag_sweep (s : State) :
    (clearFrameFlag s).sweep = s.sweep := rfl
@[simp] theorem clearFrameFlag_length (s : State) :
    (clearFrameFlag s).length = s.length := rfl
@[simp] theorem clearFrameFlag_lenEnable (s : State) :
    (clearFrameFlag s).lenEnable = s.lenEnable := rfl
@[simp] theorem clearFrameFlag_tri (s : State) :
    (clearFrameFlag s).tri = s.tri := rfl
@[simp] theorem clearFrameFlag_noise (s : State) :
    (clearFrameFlag s).noise = s.noise := rfl
@[simp] theorem clearFrameFlag_dmc (s : State) :
    (clearFrameFlag s).dmc = s.dmc := rfl
@[simp] theorem clearFrameFlag_seq (s : State) :
    (clearFrameFlag s).seq = { s.seq with frameIrq := false } := rfl
@[simp] theorem clearFrameFlag_cache (s : State) :
    (clearFrameFlag s).cache = s.cache := rfl
@[simp] theorem clearFrameFlag_pending (s : State) :
    (clearFrameFlag s).pending = s.pending := rfl
@[simp] theorem clearFrameFlag_pendingCtrl (s : State) :
    (clearFrameFlag s).pendingCtrl = s.pendingCtrl := rfl
@[simp] theorem clearFrameFlag_pendingSample (s : State) :
    (clearFrameFlag s).pendingSample = s.pendingSample := rfl
@[simp] theorem clearFrameFlag_writeCursor (s : State) :
    (clearFrameFlag s).writeCursor = s.writeCursor := rfl
@[simp] theorem clearFrameFlag_offset (s : State) :
    (clearFrameFlag s).offset = s.offset := rfl
@[simp] theorem clearFrameFlag_lastTs (s : State) :
    (clearFrameFlag s).lastTs = s.lastTs := rfl
@[simp] theorem clearFrameFlag_eofWait (s : State) :
    (clearFrameFlag s).eofWait = s.eofWait := rfl
@[simp] theorem clearFrameFlag_fault (s : State) :
    (clearFrameFlag s).fault = s.fault := rfl
@[simp] theorem clearFrameFlag_mem (s : State) :
    (clearFrameFlag s).mem = s.mem := rfl
@[simp] theorem clearFrameFlag_slots (s : State) :
    (clearFrameFlag s).slots = s.slots := rfl
@[simp] theorem clearFrameFlag_deltas (s : State) :
    (clearFrameFlag s).deltas = s.deltas := rfl
@[simp] theorem clearFrameFlag_readPos (s : State) :
    (clearFrameFlag s).readPos = s.readPos := rfl
@[simp] theorem clearFrameFlag_events (s : State) :
    (clearFrameFlag s).events = s.events := rfl
@[simp] theorem clearFrameFlag_cmds (s : State) :
    (clearFrameFlag s).cmds = s.cmds := rfl
@[simp] theorem clearFrameFlag_turns (s : State) :
    (clearFrameFlag s).turns = s.turns := rfl

/-! ### `takeCommand` -/

@[simp] theorem takeCommand_cfg (s : State) :
    (takeCommand s).cfg = s.cfg := rfl
@[simp] theorem takeCommand_env (s : State) :
    (takeCommand s).env = s.env := rfl
@[simp] theorem takeCommand_sweep (s : State) :
    (takeCommand s).sweep = s.sweep := rfl
@[simp] theorem takeCommand_length (s : State) :
    (takeCommand s).length = s.length := rfl
@[simp] theorem takeCommand_lenEnable (s : State) :
    (takeCommand s).lenEnable = s.lenEnable := rfl
@[simp] theorem takeCommand_tri (s : State) :
    (takeCommand s).tri = s.tri := rfl
@[simp] theorem takeCommand_noise (s : State) :
    (takeCommand s).noise = s.noise := rfl
@[simp] theorem takeCommand_dmc (s : State) :
    (takeCommand s).dmc = s.dmc := rfl
@[simp] theorem takeCommand_seq (s : State) :
    (takeCommand s).seq = s.seq := rfl
@[simp] theorem takeCommand_cache (s : State) :
    (takeCommand s).cache = s.cache := rfl
@[simp] theorem takeCommand_pending (s : State) :
    (takeCommand s).pending = s.pending := rfl
@[simp] theorem takeCommand_pendingCtrl (s : State) :
    (takeCommand s).pendingCtrl = s.pendingCtrl := rfl
@[simp] theorem takeCommand_pendingSample (s : State) :
    (takeCommand s).pendingSample = s.pendingSample := rfl
@[simp] theorem takeCommand_writeCursor (s : State) :
    (takeCommand s).writeCursor = s.writeCursor := rfl
@[simp] theorem takeCommand_offset (s : State) :
    (takeCommand s).offset = s.offset := rfl
@[simp] theorem takeCommand_lastTs (s : State) :
    (takeCommand s).lastTs = s.lastTs := rfl
@[simp] theorem takeCommand_eofWait (s : State) :
    (takeCommand s).eofWait = s.eofWait := rfl
@[simp] theorem takeCommand_fault (s : State) :
    (takeCommand s).fault = s.fault := rfl
@[simp] theorem takeCommand_mem (s : State) :
    (takeCommand s).mem = s.mem := rfl
@[simp] theorem takeCommand_slots (s : State) :
    (takeCommand s).slots = s.slots := rfl
@[simp] theorem takeCommand_deltas (s : State) :
    (takeCommand s).deltas = s.deltas := rfl
@[simp] theorem takeCommand_readPos (s : State) :
    (takeCommand s).readPos = s.readPos := rfl
@[simp] theorem takeCommand_events (s : State) :
    (takeCommand s).events = s.events := rfl
@[simp] theorem takeCommand_cmds (s : State) :
    (takeCommand s).cmds = s.cmds.tail := rfl
@[simp] theorem takeCommand_turns (s : State) :
    (takeCommand s).turns = s.turns := rfl

end Sys2Proof.Machine
end

