-- ==== Sys2Proof/Laws/Frames.lean ====
section
/-! SUPPORT. Sequencing, the timestamp check, `Sync`, the units, the tick and the triangle's expiry: what each can do,
said once, and what each leaves alone. -/

namespace Sys2Proof.Machine

/-! ### Sequencing (R260) -/

theorem andThen_ok {s : State} (h : s.fault = none) (k : State → State) : andThen s k = k s := by
  simp [andThen, h]

theorem andThen_fault {s : State} (h : s.fault ≠ none) (k : State → State) : andThen s k = s := by
  unfold andThen
  split
  · rename_i h0; exact absurd h0 h
  · rfl

/-- Sequencing either stops at the fault that stands or goes on. -/
theorem andThen_cases (s : State) (k : State → State) :
    (s.fault = none ∧ andThen s k = k s) ∨ (s.fault ≠ none ∧ andThen s k = s) := by
  by_cases h : s.fault = none
  · exact .inl ⟨h, andThen_ok h k⟩
  · exact .inr ⟨h, andThen_fault h k⟩

/-- A property of the state that `k` keeps is kept by going on with `k`. -/
theorem andThen_keeps {P : State → Prop} {s : State} {k : State → State} (hs : P s)
    (hk : s.fault = none → P s → P (k s)) : P (andThen s k) := by
  rcases andThen_cases s k with ⟨h, e⟩ | ⟨_, e⟩ <;> rw [e]
  · exact hk h hs
  · exact hs

/-- The timestamp check raises the violation or moves `last_ts` (R102). -/
theorem checkTime_cases (ts : Nat) (s : State) :
    (ts < s.lastTs ∧ checkTime ts s = raise (.timingViolation ts s.lastTs) s) ∨
    (s.lastTs ≤ ts ∧ checkTime ts s = { s with lastTs := ts }) := by
  unfold checkTime
  split
  · exact .inl ⟨‹_›, rfl⟩
  · exact .inr ⟨Nat.le_of_not_lt ‹_›, rfl⟩

theorem checkTime_ok {ts : Nat} {s : State} (h : s.lastTs ≤ ts) : checkTime ts s = { s with lastTs := ts } := by
  simp [checkTime, Nat.not_lt.mpr h]

/-! ### Sample index (R245) -/

/-- The sample index does not go back as time goes on. -/
theorem sampleIndex_mono {t t' : Nat} (s : State) (h : t ≤ t') : sampleIndex t s ≤ sampleIndex t' s := by
  unfold sampleIndex
  rw [Nat.shiftRight_eq_div_pow, Nat.shiftRight_eq_div_pow]
  exact Nat.div_le_div_right (Nat.add_le_add_right (Nat.mul_le_mul_right _ h) _)

/-- It depends on the configuration and the offset alone. -/
theorem sampleIndex_congr {s s' : State} (hc : s'.cfg = s.cfg) (ho : s'.offset = s.offset) (t : Nat) :
    sampleIndex t s' = sampleIndex t s := by
  simp [sampleIndex, hc, ho]

/-! ### `Sync` (R226) -/

/-- The three things a `Sync` can do. -/
theorem sync_cases (t : Nat) (s : State) :
    (sampleIndex t s < s.pendingSample ∧
      sync t s = raise (.sampleIndexRegression (sampleIndex t s) s.pendingSample) s) ∨
    (sampleIndex t s = s.pendingSample ∧ sync t s = rebuild (sampleIndex t s) s) ∨
    (s.pendingSample < sampleIndex t s ∧ sync t s = rebuild (sampleIndex t s) (flush s)) := by
  unfold sync
  dsimp only
  split
  · exact .inl ⟨‹_›, rfl⟩
  · rename_i h1
    by_cases h2 : sampleIndex t s = s.pendingSample
    · exact .inr (.inl ⟨h2, by simp [h2]⟩)
    · exact .inr (.inr ⟨by omega, by simp [h2]⟩)

/-- A `Sync` whose index does not go back raises nothing. -/
theorem sync_fault_of_le {t : Nat} {s : State} (h : s.pendingSample ≤ sampleIndex t s) :
    (sync t s).fault = s.fault := by
  rcases sync_cases t s with ⟨h1, _⟩ | ⟨_, e⟩ | ⟨_, e⟩
  · omega
  · rw [e]; rfl
  · rw [e]; rfl

/-- After such a `Sync` Pending is for the index computed. -/
theorem sync_pendingSample_of_le {t : Nat} {s : State} (h : s.pendingSample ≤ sampleIndex t s) :
    (sync t s).pendingSample = sampleIndex t s := by
  rcases sync_cases t s with ⟨h1, _⟩ | ⟨_, e⟩ | ⟨_, e⟩
  · omega
  · rw [e]; rfl
  · rw [e]; rfl

/-! ### What `sync` leaves alone -/

@[simp] theorem sync_cfg (t : Nat) (s : State) : (sync t s).cfg = s.cfg := by unfold sync; dsimp only; split <;> [rfl; (split <;> rfl)]
@[simp] theorem sync_env (t : Nat) (s : State) : (sync t s).env = s.env := by unfold sync; dsimp only; split <;> [rfl; (split <;> rfl)]
@[simp] theorem sync_sweep (t : Nat) (s : State) : (sync t s).sweep = s.sweep := by unfold sync; dsimp only; split <;> [rfl; (split <;> rfl)]
@[simp] theorem sync_length (t : Nat) (s : State) : (sync t s).length = s.length := by unfold sync; dsimp only; split <;> [rfl; (split <;> rfl)]
@[simp] theorem sync_lenEnable (t : Nat) (s : State) : (sync t s).lenEnable = s.lenEnable := by unfold sync; dsimp only; split <;> [rfl; (split <;> rfl)]
@[simp] theorem sync_tri (t : Nat) (s : State) : (sync t s).tri = s.tri := by unfold sync; dsimp only; split <;> [rfl; (split <;> rfl)]
@[simp] theorem sync_noise (t : Nat) (s : State) : (sync t s).noise = s.noise := by unfold sync; dsimp only; split <;> [rfl; (split <;> rfl)]
@[simp] theorem sync_dmc (t : Nat) (s : State) : (sync t s).dmc = s.dmc := by unfold sync; dsimp only; split <;> [rfl; (split <;> rfl)]
@[simp] theorem sync_seq (t : Nat) (s : State) : (sync t s).seq = s.seq := by unfold sync; dsimp only; split <;> [rfl; (split <;> rfl)]
@[simp] theorem sync_cache (t : Nat) (s : State) : (sync t s).cache = s.cache := by unfold sync; dsimp only; split <;> [rfl; (split <;> rfl)]
@[simp] theorem sync_offset (t : Nat) (s : State) : (sync t s).offset = s.offset := by unfold sync; dsimp only; split <;> [rfl; (split <;> rfl)]
@[simp] theorem sync_lastTs (t : Nat) (s : State) : (sync t s).lastTs = s.lastTs := by unfold sync; dsimp only; split <;> [rfl; (split <;> rfl)]
@[simp] theorem sync_eofWait (t : Nat) (s : State) : (sync t s).eofWait = s.eofWait := by unfold sync; dsimp only; split <;> [rfl; (split <;> rfl)]
@[simp] theorem sync_mem (t : Nat) (s : State) : (sync t s).mem = s.mem := by unfold sync; dsimp only; split <;> [rfl; (split <;> rfl)]
@[simp] theorem sync_deltas (t : Nat) (s : State) : (sync t s).deltas = s.deltas := by unfold sync; dsimp only; split <;> [rfl; (split <;> rfl)]
@[simp] theorem sync_readPos (t : Nat) (s : State) : (sync t s).readPos = s.readPos := by unfold sync; dsimp only; split <;> [rfl; (split <;> rfl)]
@[simp] theorem sync_cmds (t : Nat) (s : State) : (sync t s).cmds = s.cmds := by unfold sync; dsimp only; split <;> [rfl; (split <;> rfl)]
@[simp] theorem sync_turns (t : Nat) (s : State) : (sync t s).turns = s.turns := by unfold sync; dsimp only; split <;> [rfl; (split <;> rfl)]

/-! ### What `clockEnvelope` leaves alone -/

@[simp] theorem clockEnvelope_cfg (e : EnvIx) (s : State) : (clockEnvelope e s).cfg = s.cfg := rfl
@[simp] theorem clockEnvelope_sweep (e : EnvIx) (s : State) : (clockEnvelope e s).sweep = s.sweep := rfl
@[simp] theorem clockEnvelope_length (e : EnvIx) (s : State) : (clockEnvelope e s).length = s.length := rfl
@[simp] theorem clockEnvelope_lenEnable (e : EnvIx) (s : State) : (clockEnvelope e s).lenEnable = s.lenEnable := rfl
@[simp] theorem clockEnvelope_tri (e : EnvIx) (s : State) : (clockEnvelope e s).tri = s.tri := rfl
@[simp] theorem clockEnvelope_noise (e : EnvIx) (s : State) : (clockEnvelope e s).noise = s.noise := rfl
@[simp] theorem clockEnvelope_dmc (e : EnvIx) (s : State) : (clockEnvelope e s).dmc = s.dmc := rfl
@[simp] theorem clockEnvelope_seq (e : EnvIx) (s : State) : (clockEnvelope e s).seq = s.seq := rfl
@[simp] theorem clockEnvelope_pending (e : EnvIx) (s : State) : (clockEnvelope e s).pending = s.pending := rfl
@[simp] theorem clockEnvelope_pendingCtrl (e : EnvIx) (s : State) : (clockEnvelope e s).pendingCtrl = s.pendingCtrl := rfl
@[simp] theorem clockEnvelope_pendingSample (e : EnvIx) (s : State) : (clockEnvelope e s).pendingSample = s.pendingSample := rfl
@[simp] theorem clockEnvelope_writeCursor (e : EnvIx) (s : State) : (clockEnvelope e s).writeCursor = s.writeCursor := rfl
@[simp] theorem clockEnvelope_offset (e : EnvIx) (s : State) : (clockEnvelope e s).offset = s.offset := rfl
@[simp] theorem clockEnvelope_lastTs (e : EnvIx) (s : State) : (clockEnvelope e s).lastTs = s.lastTs := rfl
@[simp] theorem clockEnvelope_eofWait (e : EnvIx) (s : State) : (clockEnvelope e s).eofWait = s.eofWait := rfl
@[simp] theorem clockEnvelope_fault (e : EnvIx) (s : State) : (clockEnvelope e s).fault = s.fault := rfl
@[simp] theorem clockEnvelope_mem (e : EnvIx) (s : State) : (clockEnvelope e s).mem = s.mem := rfl
@[simp] theorem clockEnvelope_slots (e : EnvIx) (s : State) : (clockEnvelope e s).slots = s.slots := rfl
@[simp] theorem clockEnvelope_deltas (e : EnvIx) (s : State) : (clockEnvelope e s).deltas = s.deltas := rfl
@[simp] theorem clockEnvelope_readPos (e : EnvIx) (s : State) : (clockEnvelope e s).readPos = s.readPos := rfl
@[simp] theorem clockEnvelope_events (e : EnvIx) (s : State) : (clockEnvelope e s).events = s.events := rfl
@[simp] theorem clockEnvelope_cmds (e : EnvIx) (s : State) : (clockEnvelope e s).cmds = s.cmds := rfl
@[simp] theorem clockEnvelope_turns (e : EnvIx) (s : State) : (clockEnvelope e s).turns = s.turns := rfl

/-! ### What `clockEnvelopes` leaves alone -/

@[simp] theorem clockEnvelopes_cfg (s : State) : (clockEnvelopes s).cfg = s.cfg := rfl
@[simp] theorem clockEnvelopes_sweep (s : State) : (clockEnvelopes s).sweep = s.sweep := rfl
@[simp] theorem clockEnvelopes_length (s : State) : (clockEnvelopes s).length = s.length := rfl
@[simp] theorem clockEnvelopes_lenEnable (s : State) : (clockEnvelopes s).lenEnable = s.lenEnable := rfl
@[simp] theorem clockEnvelopes_tri (s : State) : (clockEnvelopes s).tri = s.tri := rfl
@[simp] theorem clockEnvelopes_noise (s : State) : (clockEnvelopes s).noise = s.noise := rfl
@[simp] theorem clockEnvelopes_dmc (s : State) : (clockEnvelopes s).dmc = s.dmc := rfl
@[simp] theorem clockEnvelopes_seq (s : State) : (clockEnvelopes s).seq = s.seq := rfl
@[simp] theorem clockEnvelopes_pending (s : State) : (clockEnvelopes s).pending = s.pending := rfl
@[simp] theorem clockEnvelopes_pendingCtrl (s : State) : (clockEnvelopes s).pendingCtrl = s.pendingCtrl := rfl
@[simp] theorem clockEnvelopes_pendingSample (s : State) : (clockEnvelopes s).pendingSample = s.pendingSample := rfl
@[simp] theorem clockEnvelopes_writeCursor (s : State) : (clockEnvelopes s).writeCursor = s.writeCursor := rfl
@[simp] theorem clockEnvelopes_offset (s : State) : (clockEnvelopes s).offset = s.offset := rfl
@[simp] theorem clockEnvelopes_lastTs (s : State) : (clockEnvelopes s).lastTs = s.lastTs := rfl
@[simp] theorem clockEnvelopes_eofWait (s : State) : (clockEnvelopes s).eofWait = s.eofWait := rfl
@[simp] theorem clockEnvelopes_fault (s : State) : (clockEnvelopes s).fault = s.fault := rfl
@[simp] theorem clockEnvelopes_mem (s : State) : (clockEnvelopes s).mem = s.mem := rfl
@[simp] theorem clockEnvelopes_slots (s : State) : (clockEnvelopes s).slots = s.slots := rfl
@[simp] theorem clockEnvelopes_deltas (s : State) : (clockEnvelopes s).deltas = s.deltas := rfl
@[simp] theorem clockEnvelopes_readPos (s : State) : (clockEnvelopes s).readPos = s.readPos := rfl
@[simp] theorem clockEnvelopes_events (s : State) : (clockEnvelopes s).events = s.events := rfl
@[simp] theorem clockEnvelopes_cmds (s : State) : (clockEnvelopes s).cmds = s.cmds := rfl
@[simp] theorem clockEnvelopes_turns (s : State) : (clockEnvelopes s).turns = s.turns := rfl

/-! ### What `sweepUpdate` leaves alone -/

@[simp] theorem sweepUpdate_cfg (p : PulseIx) (s : State) : (sweepUpdate p s).cfg = s.cfg := by unfold sweepUpdate; split <;> rfl
@[simp] theorem sweepUpdate_env (p : PulseIx) (s : State) : (sweepUpdate p s).env = s.env := by unfold sweepUpdate; split <;> rfl
@[simp] theorem sweepUpdate_sweep (p : PulseIx) (s : State) : (sweepUpdate p s).sweep = s.sweep := by unfold sweepUpdate; split <;> rfl
@[simp] theorem sweepUpdate_length (p : PulseIx) (s : State) : (sweepUpdate p s).length = s.length := by unfold sweepUpdate; split <;> rfl
@[simp] theorem sweepUpdate_lenEnable (p : PulseIx) (s : State) : (sweepUpdate p s).lenEnable = s.lenEnable := by unfold sweepUpdate; split <;> rfl
@[simp] theorem sweepUpdate_tri (p : PulseIx) (s : State) : (sweepUpdate p s).tri = s.tri := by unfold sweepUpdate; split <;> rfl
@[simp] theorem sweepUpdate_noise (p : PulseIx) (s : State) : (sweepUpdate p s).noise = s.noise := by unfold sweepUpdate; split <;> rfl
@[simp] theorem sweepUpdate_dmc (p : PulseIx) (s : State) : (sweepUpdate p s).dmc = s.dmc := by unfold sweepUpdate; split <;> rfl
@[simp] theorem sweepUpdate_seq (p : PulseIx) (s : State) : (sweepUpdate p s).seq = s.seq := by unfold sweepUpdate; split <;> rfl
@[simp] theorem sweepUpdate_pending (p : PulseIx) (s : State) : (sweepUpdate p s).pending = s.pending := by unfold sweepUpdate; split <;> rfl
@[simp] theorem sweepUpdate_pendingCtrl (p : PulseIx) (s : State) : (sweepUpdate p s).pendingCtrl = s.pendingCtrl := by unfold sweepUpdate; split <;> rfl
@[simp] theorem sweepUpdate_pendingSample (p : PulseIx) (s : State) : (sweepUpdate p s).pendingSample = s.pendingSample := by unfold sweepUpdate; split <;> rfl
@[simp] theorem sweepUpdate_writeCursor (p : PulseIx) (s : State) : (sweepUpdate p s).writeCursor = s.writeCursor := by unfold sweepUpdate; split <;> rfl
@[simp] theorem sweepUpdate_offset (p : PulseIx) (s : State) : (sweepUpdate p s).offset = s.offset := by unfold sweepUpdate; split <;> rfl
@[simp] theorem sweepUpdate_lastTs (p : PulseIx) (s : State) : (sweepUpdate p s).lastTs = s.lastTs := by unfold sweepUpdate; split <;> rfl
@[simp] theorem sweepUpdate_eofWait (p : PulseIx) (s : State) : (sweepUpdate p s).eofWait = s.eofWait := by unfold sweepUpdate; split <;> rfl
@[simp] theorem sweepUpdate_fault (p : PulseIx) (s : State) : (sweepUpdate p s).fault = s.fault := by unfold sweepUpdate; split <;> rfl
@[simp] theorem sweepUpdate_mem (p : PulseIx) (s : State) : (sweepUpdate p s).mem = s.mem := by unfold sweepUpdate; split <;> rfl
@[simp] theorem sweepUpdate_slots (p : PulseIx) (s : State) : (sweepUpdate p s).slots = s.slots := by unfold sweepUpdate; split <;> rfl
@[simp] theorem sweepUpdate_deltas (p : PulseIx) (s : State) : (sweepUpdate p s).deltas = s.deltas := by unfold sweepUpdate; split <;> rfl
@[simp] theorem sweepUpdate_readPos (p : PulseIx) (s : State) : (sweepUpdate p s).readPos = s.readPos := by unfold sweepUpdate; split <;> rfl
@[simp] theorem sweepUpdate_events (p : PulseIx) (s : State) : (sweepUpdate p s).events = s.events := by unfold sweepUpdate; split <;> rfl
@[simp] theorem sweepUpdate_cmds (p : PulseIx) (s : State) : (sweepUpdate p s).cmds = s.cmds := by unfold sweepUpdate; split <;> rfl
@[simp] theorem sweepUpdate_turns (p : PulseIx) (s : State) : (sweepUpdate p s).turns = s.turns := by unfold sweepUpdate; split <;> rfl

/-! ### What `clockSweep` leaves alone -/

@[simp] theorem clockSweep_cfg (p : PulseIx) (s : State) : (clockSweep p s).cfg = s.cfg := by unfold clockSweep; dsimp only; split <;> simp
@[simp] theorem clockSweep_env (p : PulseIx) (s : State) : (clockSweep p s).env = s.env := by unfold clockSweep; dsimp only; split <;> simp
@[simp] theorem clockSweep_length (p : PulseIx) (s : State) : (clockSweep p s).length = s.length := by unfold clockSweep; dsimp only; split <;> simp
@[simp] theorem clockSweep_lenEnable (p : PulseIx) (s : State) : (clockSweep p s).lenEnable = s.lenEnable := by unfold clockSweep; dsimp only; split <;> simp
@[simp] theorem clockSweep_tri (p : PulseIx) (s : State) : (clockSweep p s).tri = s.tri := by unfold clockSweep; dsimp only; split <;> simp
@[simp] theorem clockSweep_noise (p : PulseIx) (s : State) : (clockSweep p s).noise = s.noise := by unfold clockSweep; dsimp only; split <;> simp
@[simp] theorem clockSweep_dmc (p : PulseIx) (s : State) : (clockSweep p s).dmc = s.dmc := by unfold clockSweep; dsimp only; split <;> simp
@[simp] theorem clockSweep_seq (p : PulseIx) (s : State) : (clockSweep p s).seq = s.seq := by unfold clockSweep; dsimp only; split <;> simp
@[simp] theorem clockSweep_pending (p : PulseIx) (s : State) : (clockSweep p s).pending = s.pending := by unfold clockSweep; dsimp only; split <;> simp
@[simp] theorem clockSweep_pendingCtrl (p : PulseIx) (s : State) : (clockSweep p s).pendingCtrl = s.pendingCtrl := by unfold clockSweep; dsimp only; split <;> simp
@[simp] theorem clockSweep_pendingSample (p : PulseIx) (s : State) : (clockSweep p s).pendingSample = s.pendingSample := by unfold clockSweep; dsimp only; split <;> simp
@[simp] theorem clockSweep_writeCursor (p : PulseIx) (s : State) : (clockSweep p s).writeCursor = s.writeCursor := by unfold clockSweep; dsimp only; split <;> simp
@[simp] theorem clockSweep_offset (p : PulseIx) (s : State) : (clockSweep p s).offset = s.offset := by unfold clockSweep; dsimp only; split <;> simp
@[simp] theorem clockSweep_lastTs (p : PulseIx) (s : State) : (clockSweep p s).lastTs = s.lastTs := by unfold clockSweep; dsimp only; split <;> simp
@[simp] theorem clockSweep_eofWait (p : PulseIx) (s : State) : (clockSweep p s).eofWait = s.eofWait := by unfold clockSweep; dsimp only; split <;> simp
@[simp] theorem clockSweep_fault (p : PulseIx) (s : State) : (clockSweep p s).fault = s.fault := by unfold clockSweep; dsimp only; split <;> simp
@[simp] theorem clockSweep_mem (p : PulseIx) (s : State) : (clockSweep p s).mem = s.mem := by unfold clockSweep; dsimp only; split <;> simp
@[simp] theorem clockSweep_slots (p : PulseIx) (s : State) : (clockSweep p s).slots = s.slots := by unfold clockSweep; dsimp only; split <;> simp
@[simp] theorem clockSweep_deltas (p : PulseIx) (s : State) : (clockSweep p s).deltas = s.deltas := by unfold clockSweep; dsimp only; split <;> simp
@[simp] theorem clockSweep_readPos (p : PulseIx) (s : State) : (clockSweep p s).readPos = s.readPos := by unfold clockSweep; dsimp only; split <;> simp
@[simp] theorem clockSweep_events (p : PulseIx) (s : State) : (clockSweep p s).events = s.events := by unfold clockSweep; dsimp only; split <;> simp
@[simp] theorem clockSweep_cmds (p : PulseIx) (s : State) : (clockSweep p s).cmds = s.cmds := by unfold clockSweep; dsimp only; split <;> simp
@[simp] theorem clockSweep_turns (p : PulseIx) (s : State) : (clockSweep p s).turns = s.turns := by unfold clockSweep; dsimp only; split <;> simp

/-! ### What `clockSweeps` leaves alone -/

@[simp] theorem clockSweeps_cfg (s : State) : (clockSweeps s).cfg = s.cfg := by simp [clockSweeps]
@[simp] theorem clockSweeps_env (s : State) : (clockSweeps s).env = s.env := by simp [clockSweeps]
@[simp] theorem clockSweeps_length (s : State) : (clockSweeps s).length = s.length := by simp [clockSweeps]
@[simp] theorem clockSweeps_lenEnable (s : State) : (clockSweeps s).lenEnable = s.lenEnable := by simp [clockSweeps]
@[simp] theorem clockSweeps_tri (s : State) : (clockSweeps s).tri = s.tri := by simp [clockSweeps]
@[simp] theorem clockSweeps_noise (s : State) : (clockSweeps s).noise = s.noise := by simp [clockSweeps]
@[simp] theorem clockSweeps_dmc (s : State) : (clockSweeps s).dmc = s.dmc := by simp [clockSweeps]
@[simp] theorem clockSweeps_seq (s : State) : (clockSweeps s).seq = s.seq := by simp [clockSweeps]
@[simp] theorem clockSweeps_pending (s : State) : (clockSweeps s).pending = s.pending := by simp [clockSweeps]
@[simp] theorem clockSweeps_pendingCtrl (s : State) : (clockSweeps s).pendingCtrl = s.pendingCtrl := by simp [clockSweeps]
@[simp] theorem clockSweeps_pendingSample (s : State) : (clockSweeps s).pendingSample = s.pendingSample := by simp [clockSweeps]
@[simp] theorem clockSweeps_writeCursor (s : State) : (clockSweeps s).writeCursor = s.writeCursor := by simp [clockSweeps]
@[simp] theorem clockSweeps_offset (s : State) : (clockSweeps s).offset = s.offset := by simp [clockSweeps]
@[simp] theorem clockSweeps_lastTs (s : State) : (clockSweeps s).lastTs = s.lastTs := by simp [clockSweeps]
@[simp] theorem clockSweeps_eofWait (s : State) : (clockSweeps s).eofWait = s.eofWait := by simp [clockSweeps]
@[simp] theorem clockSweeps_fault (s : State) : (clockSweeps s).fault = s.fault := by simp [clockSweeps]
@[simp] theorem clockSweeps_mem (s : State) : (clockSweeps s).mem = s.mem := by simp [clockSweeps]
@[simp] theorem clockSweeps_slots (s : State) : (clockSweeps s).slots = s.slots := by simp [clockSweeps]
@[simp] theorem clockSweeps_deltas (s : State) : (clockSweeps s).deltas = s.deltas := by simp [clockSweeps]
@[simp] theorem clockSweeps_readPos (s : State) : (clockSweeps s).readPos = s.readPos := by simp [clockSweeps]
@[simp] theorem clockSweeps_events (s : State) : (clockSweeps s).events = s.events := by simp [clockSweeps]
@[simp] theorem clockSweeps_cmds (s : State) : (clockSweeps s).cmds = s.cmds := by simp [clockSweeps]
@[simp] theorem clockSweeps_turns (s : State) : (clockSweeps s).turns = s.turns := by simp [clockSweeps]

/-! ### What `clockLengths` leaves alone -/

@[simp] theorem clockLengths_cfg (s : State) : (clockLengths s).cfg = s.cfg := rfl
@[simp] theorem clockLengths_env (s : State) : (clockLengths s).env = s.env := rfl
@[simp] theorem clockLengths_sweep (s : State) : (clockLengths s).sweep = s.sweep := rfl
@[simp] theorem clockLengths_lenEnable (s : State) : (clockLengths s).lenEnable = s.lenEnable := rfl
@[simp] theorem clockLengths_tri (s : State) : (clockLengths s).tri = s.tri := rfl
@[simp] theorem clockLengths_noise (s : State) : (clockLengths s).noise = s.noise := rfl
@[simp] theorem clockLengths_dmc (s : State) : (clockLengths s).dmc = s.dmc := rfl
@[simp] theorem clockLengths_seq (s : State) : (clockLengths s).seq = s.seq := rfl
@[simp] theorem clockLengths_cache (s : State) : (clockLengths s).cache = s.cache := rfl
@[simp] theorem clockLengths_pending (s : State) : (clockLengths s).pending = s.pending := rfl
@[simp] theorem clockLengths_pendingCtrl (s : State) : (clockLengths s).pendingCtrl = s.pendingCtrl := rfl
@[simp] theorem clockLengths_pendingSample (s : State) : (clockLengths s).pendingSample = s.pendingSample := rfl
@[simp] theorem clockLengths_writeCursor (s : State) : (clockLengths s).writeCursor = s.writeCursor := rfl
@[simp] theorem clockLengths_offset (s : State) : (clockLengths s).offset = s.offset := rfl
@[simp] theorem clockLengths_lastTs (s : State) : (clockLengths s).lastTs = s.lastTs := rfl
@[simp] theorem clockLengths_eofWait (s : State) : (clockLengths s).eofWait = s.eofWait := rfl
@[simp] theorem clockLengths_fault (s : State) : (clockLengths s).fault = s.fault := rfl
@[simp] theorem clockLengths_mem (s : State) : (clockLengths s).mem = s.mem := rfl
@[simp] theorem clockLengths_slots (s : State) : (clockLengths s).slots = s.slots := rfl
@[simp] theorem clockLengths_deltas (s : State) : (clockLengths s).deltas = s.deltas := rfl
@[simp] theorem clockLengths_readPos (s : State) : (clockLengths s).readPos = s.readPos := rfl
@[simp] theorem clockLengths_events (s : State) : (clockLengths s).events = s.events := rfl
@[simp] theorem clockLengths_cmds (s : State) : (clockLengths s).cmds = s.cmds := rfl
@[simp] theorem clockLengths_turns (s : State) : (clockLengths s).turns = s.turns := rfl

/-! ### What `clockHalfStep` leaves alone -/

@[simp] theorem clockHalfStep_cfg (entry : BitVec 2) (s : State) : (clockHalfStep entry s).cfg = s.cfg := by unfold clockHalfStep; split <;> simp
@[simp] theorem clockHalfStep_env (entry : BitVec 2) (s : State) : (clockHalfStep entry s).env = s.env := by unfold clockHalfStep; split <;> simp
@[simp] theorem clockHalfStep_lenEnable (entry : BitVec 2) (s : State) : (clockHalfStep entry s).lenEnable = s.lenEnable := by unfold clockHalfStep; split <;> simp
@[simp] theorem clockHalfStep_tri (entry : BitVec 2) (s : State) : (clockHalfStep entry s).tri = s.tri := by unfold clockHalfStep; split <;> simp
@[simp] theorem clockHalfStep_noise (entry : BitVec 2) (s : State) : (clockHalfStep entry s).noise = s.noise := by unfold clockHalfStep; split <;> simp
@[simp] theorem clockHalfStep_dmc (entry : BitVec 2) (s : State) : (clockHalfStep entry s).dmc = s.dmc := by unfold clockHalfStep; split <;> simp
@[simp] theorem clockHalfStep_seq (entry : BitVec 2) (s : State) : (clockHalfStep entry s).seq = s.seq := by unfold clockHalfStep; split <;> simp
@[simp] theorem clockHalfStep_pending (entry : BitVec 2) (s : State) : (clockHalfStep entry s).pending = s.pending := by unfold clockHalfStep; split <;> simp
@[simp] theorem clockHalfStep_pendingCtrl (entry : BitVec 2) (s : State) : (clockHalfStep entry s).pendingCtrl = s.pendingCtrl := by unfold clockHalfStep; split <;> simp
@[simp] theorem clockHalfStep_pendingSample (entry : BitVec 2) (s : State) : (clockHalfStep entry s).pendingSample = s.pendingSample := by unfold clockHalfStep; split <;> simp
@[simp] theorem clockHalfStep_writeCursor (entry : BitVec 2) (s : State) : (clockHalfStep entry s).writeCursor = s.writeCursor := by unfold clockHalfStep; split <;> simp
@[simp] theorem clockHalfStep_offset (entry : BitVec 2) (s : State) : (clockHalfStep entry s).offset = s.offset := by unfold clockHalfStep; split <;> simp
@[simp] theorem clockHalfStep_lastTs (entry : BitVec 2) (s : State) : (clockHalfStep entry s).lastTs = s.lastTs := by unfold clockHalfStep; split <;> simp
@[simp] theorem clockHalfStep_eofWait (entry : BitVec 2) (s : State) : (clockHalfStep entry s).eofWait = s.eofWait := by unfold clockHalfStep; split <;> simp
@[simp] theorem clockHalfStep_fault (entry : BitVec 2) (s : State) : (clockHalfStep entry s).fault = s.fault := by unfold clockHalfStep; split <;> simp
@[simp] theorem clockHalfStep_mem (entry : BitVec 2) (s : State) : (clockHalfStep entry s).mem = s.mem := by unfold clockHalfStep; split <;> simp
@[simp] theorem clockHalfStep_slots (entry : BitVec 2) (s : State) : (clockHalfStep entry s).slots = s.slots := by unfold clockHalfStep; split <;> simp
@[simp] theorem clockHalfStep_deltas (entry : BitVec 2) (s : State) : (clockHalfStep entry s).deltas = s.deltas := by unfold clockHalfStep; split <;> simp
@[simp] theorem clockHalfStep_readPos (entry : BitVec 2) (s : State) : (clockHalfStep entry s).readPos = s.readPos := by unfold clockHalfStep; split <;> simp
@[simp] theorem clockHalfStep_events (entry : BitVec 2) (s : State) : (clockHalfStep entry s).events = s.events := by unfold clockHalfStep; split <;> simp
@[simp] theorem clockHalfStep_cmds (entry : BitVec 2) (s : State) : (clockHalfStep entry s).cmds = s.cmds := by unfold clockHalfStep; split <;> simp
@[simp] theorem clockHalfStep_turns (entry : BitVec 2) (s : State) : (clockHalfStep entry s).turns = s.turns := by unfold clockHalfStep; split <;> simp

/-! ### What `frameFlag` leaves alone -/

@[simp] theorem frameFlag_cfg (entry : BitVec 2) (s : State) : (frameFlag entry s).cfg = s.cfg := by unfold frameFlag; split <;> rfl
@[simp] theorem frameFlag_env (entry : BitVec 2) (s : State) : (frameFlag entry s).env = s.env := by unfold frameFlag; split <;> rfl
@[simp] theorem frameFlag_sweep (entry : BitVec 2) (s : State) : (frameFlag entry s).sweep = s.sweep := by unfold frameFlag; split <;> rfl
@[simp] theorem frameFlag_length (entry : BitVec 2) (s : State) : (frameFlag entry s).length = s.length := by unfold frameFlag; split <;> rfl
@[simp] theorem frameFlag_lenEnable (entry : BitVec 2) (s : State) : (frameFlag entry s).lenEnable = s.lenEnable := by unfold frameFlag; split <;> rfl
@[simp] theorem frameFlag_tri (entry : BitVec 2) (s : State) : (frameFlag entry s).tri = s.tri := by unfold frameFlag; split <;> rfl
@[simp] theorem frameFlag_noise (entry : BitVec 2) (s : State) : (frameFlag entry s).noise = s.noise := by unfold frameFlag; split <;> rfl
@[simp] theorem frameFlag_dmc (entry : BitVec 2) (s : State) : (frameFlag entry s).dmc = s.dmc := by unfold frameFlag; split <;> rfl
@[simp] theorem frameFlag_cache (entry : BitVec 2) (s : State) : (frameFlag entry s).cache = s.cache := by unfold frameFlag; split <;> rfl
@[simp] theorem frameFlag_pending (entry : BitVec 2) (s : State) : (frameFlag entry s).pending = s.pending := by unfold frameFlag; split <;> rfl
@[simp] theorem frameFlag_pendingCtrl (entry : BitVec 2) (s : State) : (frameFlag entry s).pendingCtrl = s.pendingCtrl := by unfold frameFlag; split <;> rfl
@[simp] theorem frameFlag_pendingSample (entry : BitVec 2) (s : State) : (frameFlag entry s).pendingSample = s.pendingSample := by unfold frameFlag; split <;> rfl
@[simp] theorem frameFlag_writeCursor (entry : BitVec 2) (s : State) : (frameFlag entry s).writeCursor = s.writeCursor := by unfold frameFlag; split <;> rfl
@[simp] theorem frameFlag_offset (entry : BitVec 2) (s : State) : (frameFlag entry s).offset = s.offset := by unfold frameFlag; split <;> rfl
@[simp] theorem frameFlag_lastTs (entry : BitVec 2) (s : State) : (frameFlag entry s).lastTs = s.lastTs := by unfold frameFlag; split <;> rfl
@[simp] theorem frameFlag_eofWait (entry : BitVec 2) (s : State) : (frameFlag entry s).eofWait = s.eofWait := by unfold frameFlag; split <;> rfl
@[simp] theorem frameFlag_fault (entry : BitVec 2) (s : State) : (frameFlag entry s).fault = s.fault := by unfold frameFlag; split <;> rfl
@[simp] theorem frameFlag_mem (entry : BitVec 2) (s : State) : (frameFlag entry s).mem = s.mem := by unfold frameFlag; split <;> rfl
@[simp] theorem frameFlag_slots (entry : BitVec 2) (s : State) : (frameFlag entry s).slots = s.slots := by unfold frameFlag; split <;> rfl
@[simp] theorem frameFlag_deltas (entry : BitVec 2) (s : State) : (frameFlag entry s).deltas = s.deltas := by unfold frameFlag; split <;> rfl
@[simp] theorem frameFlag_readPos (entry : BitVec 2) (s : State) : (frameFlag entry s).readPos = s.readPos := by unfold frameFlag; split <;> rfl
@[simp] theorem frameFlag_events (entry : BitVec 2) (s : State) : (frameFlag entry s).events = s.events := by unfold frameFlag; split <;> rfl
@[simp] theorem frameFlag_cmds (entry : BitVec 2) (s : State) : (frameFlag entry s).cmds = s.cmds := by unfold frameFlag; split <;> rfl
@[simp] theorem frameFlag_turns (entry : BitVec 2) (s : State) : (frameFlag entry s).turns = s.turns := by unfold frameFlag; split <;> rfl

/-! ### What `clockUnits` leaves alone -/

@[simp] theorem clockUnits_cfg (s : State) : (clockUnits s).cfg = s.cfg := by simp [clockUnits]
@[simp] theorem clockUnits_lenEnable (s : State) : (clockUnits s).lenEnable = s.lenEnable := by simp [clockUnits]
@[simp] theorem clockUnits_noise (s : State) : (clockUnits s).noise = s.noise := by simp [clockUnits]
@[simp] theorem clockUnits_dmc (s : State) : (clockUnits s).dmc = s.dmc := by simp [clockUnits]
@[simp] theorem clockUnits_pending (s : State) : (clockUnits s).pending = s.pending := by simp [clockUnits]
@[simp] theorem clockUnits_pendingCtrl (s : State) : (clockUnits s).pendingCtrl = s.pendingCtrl := by simp [clockUnits]
@[simp] theorem clockUnits_pendingSample (s : State) : (clockUnits s).pendingSample = s.pendingSample := by simp [clockUnits]
@[simp] theorem clockUnits_writeCursor (s : State) : (clockUnits s).writeCursor = s.writeCursor := by simp [clockUnits]
@[simp] theorem clockUnits_offset (s : State) : (clockUnits s).offset = s.offset := by simp [clockUnits]
@[simp] theorem clockUnits_lastTs (s : State) : (clockUnits s).lastTs = s.lastTs := by simp [clockUnits]
@[simp] theorem clockUnits_eofWait (s : State) : (clockUnits s).eofWait = s.eofWait := by simp [clockUnits]
@[simp] theorem clockUnits_fault (s : State) : (clockUnits s).fault = s.fault := by simp [clockUnits]
@[simp] theorem clockUnits_mem (s : State) : (clockUnits s).mem = s.mem := by simp [clockUnits]
@[simp] theorem clockUnits_slots (s : State) : (clockUnits s).slots = s.slots := by simp [clockUnits]
@[simp] theorem clockUnits_deltas (s : State) : (clockUnits s).deltas = s.deltas := by simp [clockUnits]
@[simp] theorem clockUnits_readPos (s : State) : (clockUnits s).readPos = s.readPos := by simp [clockUnits]
@[simp] theorem clockUnits_events (s : State) : (clockUnits s).events = s.events := by simp [clockUnits]
@[simp] theorem clockUnits_cmds (s : State) : (clockUnits s).cmds = s.cmds := by simp [clockUnits]
@[simp] theorem clockUnits_turns (s : State) : (clockUnits s).turns = s.turns := by simp [clockUnits]

/-! ### What `tick` leaves alone -/

@[simp] theorem tick_cfg (T : Nat) (s : State) : (tick T s).cfg = s.cfg := by unfold tick; dsimp only; split <;> simp
@[simp] theorem tick_lenEnable (T : Nat) (s : State) : (tick T s).lenEnable = s.lenEnable := by unfold tick; dsimp only; split <;> simp
@[simp] theorem tick_noise (T : Nat) (s : State) : (tick T s).noise = s.noise := by unfold tick; dsimp only; split <;> simp
@[simp] theorem tick_dmc (T : Nat) (s : State) : (tick T s).dmc = s.dmc := by unfold tick; dsimp only; split <;> simp
@[simp] theorem tick_offset (T : Nat) (s : State) : (tick T s).offset = s.offset := by unfold tick; dsimp only; split <;> simp
@[simp] theorem tick_lastTs (T : Nat) (s : State) : (tick T s).lastTs = s.lastTs := by unfold tick; dsimp only; split <;> simp
@[simp] theorem tick_eofWait (T : Nat) (s : State) : (tick T s).eofWait = s.eofWait := by unfold tick; dsimp only; split <;> simp
@[simp] theorem tick_mem (T : Nat) (s : State) : (tick T s).mem = s.mem := by unfold tick; dsimp only; split <;> simp
@[simp] theorem tick_deltas (T : Nat) (s : State) : (tick T s).deltas = s.deltas := by unfold tick; dsimp only; split <;> simp
@[simp] theorem tick_readPos (T : Nat) (s : State) : (tick T s).readPos = s.readPos := by unfold tick; dsimp only; split <;> simp
@[simp] theorem tick_cmds (T : Nat) (s : State) : (tick T s).cmds = s.cmds := by unfold tick; dsimp only; split <;> simp
@[simp] theorem tick_turns (T : Nat) (s : State) : (tick T s).turns = s.turns := by unfold tick; dsimp only; split <;> simp

/-! ### What `triExpire` leaves alone -/

@[simp] theorem triExpire_cfg (T : Nat) (s : State) : (triExpire T s).cfg = s.cfg := by simp [triExpire]
@[simp] theorem triExpire_env (T : Nat) (s : State) : (triExpire T s).env = s.env := by simp [triExpire]
@[simp] theorem triExpire_sweep (T : Nat) (s : State) : (triExpire T s).sweep = s.sweep := by simp [triExpire]
@[simp] theorem triExpire_length (T : Nat) (s : State) : (triExpire T s).length = s.length := by simp [triExpire]
@[simp] theorem triExpire_lenEnable (T : Nat) (s : State) : (triExpire T s).lenEnable = s.lenEnable := by simp [triExpire]
@[simp] theorem triExpire_noise (T : Nat) (s : State) : (triExpire T s).noise = s.noise := by simp [triExpire]
@[simp] theorem triExpire_dmc (T : Nat) (s : State) : (triExpire T s).dmc = s.dmc := by simp [triExpire]
@[simp] theorem triExpire_seq (T : Nat) (s : State) : (triExpire T s).seq = s.seq := by simp [triExpire]
@[simp] theorem triExpire_offset (T : Nat) (s : State) : (triExpire T s).offset = s.offset := by simp [triExpire]
@[simp] theorem triExpire_lastTs (T : Nat) (s : State) : (triExpire T s).lastTs = s.lastTs := by simp [triExpire]
@[simp] theorem triExpire_eofWait (T : Nat) (s : State) : (triExpire T s).eofWait = s.eofWait := by simp [triExpire]
@[simp] theorem triExpire_mem (T : Nat) (s : State) : (triExpire T s).mem = s.mem := by simp [triExpire]
@[simp] theorem triExpire_deltas (T : Nat) (s : State) : (triExpire T s).deltas = s.deltas := by simp [triExpire]
@[simp] theorem triExpire_readPos (T : Nat) (s : State) : (triExpire T s).readPos = s.readPos := by simp [triExpire]
@[simp] theorem triExpire_cmds (T : Nat) (s : State) : (triExpire T s).cmds = s.cmds := by simp [triExpire]
@[simp] theorem triExpire_turns (T : Nat) (s : State) : (triExpire T s).turns = s.turns := by simp [triExpire]

/-! ### What `emit` leaves alone -/

@[simp] theorem emit_cfg (d : Int) (t : Nat) (s : State) : (emit d t s).cfg = s.cfg := rfl
@[simp] theorem emit_env (d : Int) (t : Nat) (s : State) : (emit d t s).env = s.env := rfl
@[simp] theorem emit_sweep (d : Int) (t : Nat) (s : State) : (emit d t s).sweep = s.sweep := rfl
@[simp] theorem emit_length (d : Int) (t : Nat) (s : State) : (emit d t s).length = s.length := rfl
@[simp] theorem emit_lenEnable (d : Int) (t : Nat) (s : State) : (emit d t s).lenEnable = s.lenEnable := rfl
@[simp] theorem emit_tri (d : Int) (t : Nat) (s : State) : (emit d t s).tri = s.tri := rfl
@[simp] theorem emit_noise (d : Int) (t : Nat) (s : State) : (emit d t s).noise = s.noise := rfl
@[simp] theorem emit_seq (d : Int) (t : Nat) (s : State) : (emit d t s).seq = s.seq := rfl
@[simp] theorem emit_cache (d : Int) (t : Nat) (s : State) : (emit d t s).cache = s.cache := rfl
@[simp] theorem emit_pending (d : Int) (t : Nat) (s : State) : (emit d t s).pending = s.pending := rfl
@[simp] theorem emit_pendingCtrl (d : Int) (t : Nat) (s : State) : (emit d t s).pendingCtrl = s.pendingCtrl := rfl
@[simp] theorem emit_pendingSample (d : Int) (t : Nat) (s : State) : (emit d t s).pendingSample = s.pendingSample := rfl
@[simp] theorem emit_writeCursor (d : Int) (t : Nat) (s : State) : (emit d t s).writeCursor = s.writeCursor := rfl
@[simp] theorem emit_offset (d : Int) (t : Nat) (s : State) : (emit d t s).offset = s.offset := rfl
@[simp] theorem emit_lastTs (d : Int) (t : Nat) (s : State) : (emit d t s).lastTs = s.lastTs := rfl
@[simp] theorem emit_eofWait (d : Int) (t : Nat) (s : State) : (emit d t s).eofWait = s.eofWait := rfl
@[simp] theorem emit_fault (d : Int) (t : Nat) (s : State) : (emit d t s).fault = s.fault := rfl
@[simp] theorem emit_mem (d : Int) (t : Nat) (s : State) : (emit d t s).mem = s.mem := rfl
@[simp] theorem emit_slots (d : Int) (t : Nat) (s : State) : (emit d t s).slots = s.slots := rfl
@[simp] theorem emit_readPos (d : Int) (t : Nat) (s : State) : (emit d t s).readPos = s.readPos := rfl
@[simp] theorem emit_cmds (d : Int) (t : Nat) (s : State) : (emit d t s).cmds = s.cmds := rfl
@[simp] theorem emit_turns (d : Int) (t : Nat) (s : State) : (emit d t s).turns = s.turns := rfl

/-! ### What `dmcRestart` leaves alone -/

@[simp] theorem dmcRestart_cfg (s : State) : (dmcRestart s).cfg = s.cfg := rfl
@[simp] theorem dmcRestart_env (s : State) : (dmcRestart s).env = s.env := rfl
@[simp] theorem dmcRestart_sweep (s : State) : (dmcRestart s).sweep = s.sweep := rfl
@[simp] theorem dmcRestart_length (s : State) : (dmcRestart s).length = s.length := rfl
@[simp] theorem dmcRestart_lenEnable (s : State) : (dmcRestart s).lenEnable = s.lenEnable := rfl
@[simp] theorem dmcRestart_tri (s : State) : (dmcRestart s).tri = s.tri := rfl
@[simp] theorem dmcRestart_noise (s : State) : (dmcRestart s).noise = s.noise := rfl
@[simp] theorem dmcRestart_seq (s : State) : (dmcRestart s).seq = s.seq := rfl
@[simp] theorem dmcRestart_cache (s : State) : (dmcRestart s).cache = s.cache := rfl
@[simp] theorem dmcRestart_pending (s : State) : (dmcRestart s).pending = s.pending := rfl
@[simp] theorem dmcRestart_pendingCtrl (s : State) : (dmcRestart s).pendingCtrl = s.pendingCtrl := rfl
@[simp] theorem dmcRestart_pendingSample (s : State) : (dmcRestart s).pendingSample = s.pendingSample := rfl
@[simp] theorem dmcRestart_writeCursor (s : State) : (dmcRestart s).writeCursor = s.writeCursor := rfl
@[simp] theorem dmcRestart_offset (s : State) : (dmcRestart s).offset = s.offset := rfl
@[simp] theorem dmcRestart_lastTs (s : State) : (dmcRestart s).lastTs = s.lastTs := rfl
@[simp] theorem dmcRestart_eofWait (s : State) : (dmcRestart s).eofWait = s.eofWait := rfl
@[simp] theorem dmcRestart_fault (s : State) : (dmcRestart s).fault = s.fault := rfl
@[simp] theorem dmcRestart_mem (s : State) : (dmcRestart s).mem = s.mem := rfl
@[simp] theorem dmcRestart_slots (s : State) : (dmcRestart s).slots = s.slots := rfl
@[simp] theorem dmcRestart_deltas (s : State) : (dmcRestart s).deltas = s.deltas := rfl
@[simp] theorem dmcRestart_readPos (s : State) : (dmcRestart s).readPos = s.readPos := rfl
@[simp] theorem dmcRestart_events (s : State) : (dmcRestart s).events = s.events := rfl
@[simp] theorem dmcRestart_cmds (s : State) : (dmcRestart s).cmds = s.cmds := rfl
@[simp] theorem dmcRestart_turns (s : State) : (dmcRestart s).turns = s.turns := rfl

/-! ### What `dmcComplete` leaves alone -/

@[simp] theorem dmcComplete_cfg (s : State) : (dmcComplete s).cfg = s.cfg := rfl
@[simp] theorem dmcComplete_env (s : State) : (dmcComplete s).env = s.env := rfl
@[simp] theorem dmcComplete_sweep (s : State) : (dmcComplete s).sweep = s.sweep := rfl
@[simp] theorem dmcComplete_length (s : State) : (dmcComplete s).length = s.length := rfl
@[simp] theorem dmcComplete_lenEnable (s : State) : (dmcComplete s).lenEnable = s.lenEnable := rfl
@[simp] theorem dmcComplete_tri (s : State) : (dmcComplete s).tri = s.tri := rfl
@[simp] theorem dmcComplete_noise (s : State) : (dmcComplete s).noise = s.noise := rfl
@[simp] theorem dmcComplete_seq (s : State) : (dmcComplete s).seq = s.seq := rfl
@[simp] theorem dmcComplete_cache (s : State) : (dmcComplete s).cache = s.cache := rfl
@[simp] theorem dmcComplete_pending (s : State) : (dmcComplete s).pending = s.pending := rfl
@[simp] theorem dmcComplete_pendingCtrl (s : State) : (dmcComplete s).pendingCtrl = s.pendingCtrl := rfl
@[simp] theorem dmcComplete_pendingSample (s : State) : (dmcComplete s).pendingSample = s.pendingSample := rfl
@[simp] theorem dmcComplete_writeCursor (s : State) : (dmcComplete s).writeCursor = s.writeCursor := rfl
@[simp] theorem dmcComplete_offset (s : State) : (dmcComplete s).offset = s.offset := rfl
@[simp] theorem dmcComplete_lastTs (s : State) : (dmcComplete s).lastTs = s.lastTs := rfl
@[simp] theorem dmcComplete_eofWait (s : State) : (dmcComplete s).eofWait = s.eofWait := rfl
@[simp] theorem dmcComplete_fault (s : State) : (dmcComplete s).fault = s.fault := rfl
@[simp] theorem dmcComplete_mem (s : State) : (dmcComplete s).mem = s.mem := rfl
@[simp] theorem dmcComplete_slots (s : State) : (dmcComplete s).slots = s.slots := rfl
@[simp] theorem dmcComplete_deltas (s : State) : (dmcComplete s).deltas = s.deltas := rfl
@[simp] theorem dmcComplete_readPos (s : State) : (dmcComplete s).readPos = s.readPos := rfl
@[simp] theorem dmcComplete_cmds (s : State) : (dmcComplete s).cmds = s.cmds := rfl
@[simp] theorem dmcComplete_turns (s : State) : (dmcComplete s).turns = s.turns := rfl

/-! ### What `dmcFetch` leaves alone -/

@[simp] theorem dmcFetch_cfg (s : State) : (dmcFetch s).cfg = s.cfg := rfl
@[simp] theorem dmcFetch_env (s : State) : (dmcFetch s).env = s.env := rfl
@[simp] theorem dmcFetch_sweep (s : State) : (dmcFetch s).sweep = s.sweep := rfl
@[simp] theorem dmcFetch_length (s : State) : (dmcFetch s).length = s.length := rfl
@[simp] theorem dmcFetch_lenEnable (s : State) : (dmcFetch s).lenEnable = s.lenEnable := rfl
@[simp] theorem dmcFetch_tri (s : State) : (dmcFetch s).tri = s.tri := rfl
@[simp] theorem dmcFetch_noise (s : State) : (dmcFetch s).noise = s.noise := rfl
@[simp] theorem dmcFetch_seq (s : State) : (dmcFetch s).seq = s.seq := rfl
@[simp] theorem dmcFetch_cache (s : State) : (dmcFetch s).cache = s.cache := rfl
@[simp] theorem dmcFetch_pending (s : State) : (dmcFetch s).pending = s.pending := rfl
@[simp] theorem dmcFetch_pendingCtrl (s : State) : (dmcFetch s).pendingCtrl = s.pendingCtrl := rfl
@[simp] theorem dmcFetch_pendingSample (s : State) : (dmcFetch s).pendingSample = s.pendingSample := rfl
@[simp] theorem dmcFetch_writeCursor (s : State) : (dmcFetch s).writeCursor = s.writeCursor := rfl
@[simp] theorem dmcFetch_offset (s : State) : (dmcFetch s).offset = s.offset := rfl
@[simp] theorem dmcFetch_lastTs (s : State) : (dmcFetch s).lastTs = s.lastTs := rfl
@[simp] theorem dmcFetch_eofWait (s : State) : (dmcFetch s).eofWait = s.eofWait := rfl
@[simp] theorem dmcFetch_fault (s : State) : (dmcFetch s).fault = s.fault := rfl
@[simp] theorem dmcFetch_mem (s : State) : (dmcFetch s).mem = s.mem := rfl
@[simp] theorem dmcFetch_slots (s : State) : (dmcFetch s).slots = s.slots := rfl
@[simp] theorem dmcFetch_deltas (s : State) : (dmcFetch s).deltas = s.deltas := rfl
@[simp] theorem dmcFetch_readPos (s : State) : (dmcFetch s).readPos = s.readPos := rfl
@[simp] theorem dmcFetch_cmds (s : State) : (dmcFetch s).cmds = s.cmds := rfl
@[simp] theorem dmcFetch_turns (s : State) : (dmcFetch s).turns = s.turns := rfl

/-! ### What `dmcPlayBit` leaves alone -/

@[simp] theorem dmcPlayBit_cfg (T : Nat) (s : State) : (dmcPlayBit T s).cfg = s.cfg := rfl
@[simp] theorem dmcPlayBit_env (T : Nat) (s : State) : (dmcPlayBit T s).env = s.env := rfl
@[simp] theorem dmcPlayBit_sweep (T : Nat) (s : State) : (dmcPlayBit T s).sweep = s.sweep := rfl
@[simp] theorem dmcPlayBit_length (T : Nat) (s : State) : (dmcPlayBit T s).length = s.length := rfl
@[simp] theorem dmcPlayBit_lenEnable (T : Nat) (s : State) : (dmcPlayBit T s).lenEnable = s.lenEnable := rfl
@[simp] theorem dmcPlayBit_tri (T : Nat) (s : State) : (dmcPlayBit T s).tri = s.tri := rfl
@[simp] theorem dmcPlayBit_noise (T : Nat) (s : State) : (dmcPlayBit T s).noise = s.noise := rfl
@[simp] theorem dmcPlayBit_seq (T : Nat) (s : State) : (dmcPlayBit T s).seq = s.seq := rfl
@[simp] theorem dmcPlayBit_cache (T : Nat) (s : State) : (dmcPlayBit T s).cache = s.cache := rfl
@[simp] theorem dmcPlayBit_pending (T : Nat) (s : State) : (dmcPlayBit T s).pending = s.pending := rfl
@[simp] theorem dmcPlayBit_pendingCtrl (T : Nat) (s : State) : (dmcPlayBit T s).pendingCtrl = s.pendingCtrl := rfl
@[simp] theorem dmcPlayBit_pendingSample (T : Nat) (s : State) : (dmcPlayBit T s).pendingSample = s.pendingSample := rfl
@[simp] theorem dmcPlayBit_writeCursor (T : Nat) (s : State) : (dmcPlayBit T s).writeCursor = s.writeCursor := rfl
@[simp] theorem dmcPlayBit_offset (T : Nat) (s : State) : (dmcPlayBit T s).offset = s.offset := rfl
@[simp] theorem dmcPlayBit_lastTs (T : Nat) (s : State) : (dmcPlayBit T s).lastTs = s.lastTs := rfl
@[simp] theorem dmcPlayBit_eofWait (T : Nat) (s : State) : (dmcPlayBit T s).eofWait = s.eofWait := rfl
@[simp] theorem dmcPlayBit_fault (T : Nat) (s : State) : (dmcPlayBit T s).fault = s.fault := rfl
@[simp] theorem dmcPlayBit_mem (T : Nat) (s : State) : (dmcPlayBit T s).mem = s.mem := rfl
@[simp] theorem dmcPlayBit_slots (T : Nat) (s : State) : (dmcPlayBit T s).slots = s.slots := rfl
@[simp] theorem dmcPlayBit_readPos (T : Nat) (s : State) : (dmcPlayBit T s).readPos = s.readPos := rfl
@[simp] theorem dmcPlayBit_cmds (T : Nat) (s : State) : (dmcPlayBit T s).cmds = s.cmds := rfl
@[simp] theorem dmcPlayBit_turns (T : Nat) (s : State) : (dmcPlayBit T s).turns = s.turns := rfl

/-! ### What `dmcTick` leaves alone -/

@[simp] theorem dmcTick_cfg (T : Nat) (s : State) : (dmcTick T s).cfg = s.cfg := by unfold dmcTick; split <;> [skip; split <;> [skip; split]] <;> simp
@[simp] theorem dmcTick_env (T : Nat) (s : State) : (dmcTick T s).env = s.env := by unfold dmcTick; split <;> [skip; split <;> [skip; split]] <;> simp
@[simp] theorem dmcTick_sweep (T : Nat) (s : State) : (dmcTick T s).sweep = s.sweep := by unfold dmcTick; split <;> [skip; split <;> [skip; split]] <;> simp
@[simp] theorem dmcTick_length (T : Nat) (s : State) : (dmcTick T s).length = s.length := by unfold dmcTick; split <;> [skip; split <;> [skip; split]] <;> simp
@[simp] theorem dmcTick_lenEnable (T : Nat) (s : State) : (dmcTick T s).lenEnable = s.lenEnable := by unfold dmcTick; split <;> [skip; split <;> [skip; split]] <;> simp
@[simp] theorem dmcTick_tri (T : Nat) (s : State) : (dmcTick T s).tri = s.tri := by unfold dmcTick; split <;> [skip; split <;> [skip; split]] <;> simp
@[simp] theorem dmcTick_noise (T : Nat) (s : State) : (dmcTick T s).noise = s.noise := by unfold dmcTick; split <;> [skip; split <;> [skip; split]] <;> simp
@[simp] theorem dmcTick_seq (T : Nat) (s : State) : (dmcTick T s).seq = s.seq := by unfold dmcTick; split <;> [skip; split <;> [skip; split]] <;> simp
@[simp] theorem dmcTick_cache (T : Nat) (s : State) : (dmcTick T s).cache = s.cache := by unfold dmcTick; split <;> [skip; split <;> [skip; split]] <;> simp
@[simp] theorem dmcTick_pending (T : Nat) (s : State) : (dmcTick T s).pending = s.pending := by unfold dmcTick; split <;> [skip; split <;> [skip; split]] <;> simp
@[simp] theorem dmcTick_pendingCtrl (T : Nat) (s : State) : (dmcTick T s).pendingCtrl = s.pendingCtrl := by unfold dmcTick; split <;> [skip; split <;> [skip; split]] <;> simp
@[simp] theorem dmcTick_pendingSample (T : Nat) (s : State) : (dmcTick T s).pendingSample = s.pendingSample := by unfold dmcTick; split <;> [skip; split <;> [skip; split]] <;> simp
@[simp] theorem dmcTick_writeCursor (T : Nat) (s : State) : (dmcTick T s).writeCursor = s.writeCursor := by unfold dmcTick; split <;> [skip; split <;> [skip; split]] <;> simp
@[simp] theorem dmcTick_offset (T : Nat) (s : State) : (dmcTick T s).offset = s.offset := by unfold dmcTick; split <;> [skip; split <;> [skip; split]] <;> simp
@[simp] theorem dmcTick_lastTs (T : Nat) (s : State) : (dmcTick T s).lastTs = s.lastTs := by unfold dmcTick; split <;> [skip; split <;> [skip; split]] <;> simp
@[simp] theorem dmcTick_eofWait (T : Nat) (s : State) : (dmcTick T s).eofWait = s.eofWait := by unfold dmcTick; split <;> [skip; split <;> [skip; split]] <;> simp
@[simp] theorem dmcTick_fault (T : Nat) (s : State) : (dmcTick T s).fault = s.fault := by unfold dmcTick; split <;> [skip; split <;> [skip; split]] <;> simp
@[simp] theorem dmcTick_mem (T : Nat) (s : State) : (dmcTick T s).mem = s.mem := by unfold dmcTick; split <;> [skip; split <;> [skip; split]] <;> simp
@[simp] theorem dmcTick_slots (T : Nat) (s : State) : (dmcTick T s).slots = s.slots := by unfold dmcTick; split <;> [skip; split <;> [skip; split]] <;> simp
@[simp] theorem dmcTick_readPos (T : Nat) (s : State) : (dmcTick T s).readPos = s.readPos := by unfold dmcTick; split <;> [skip; split <;> [skip; split]] <;> simp
@[simp] theorem dmcTick_cmds (T : Nat) (s : State) : (dmcTick T s).cmds = s.cmds := by unfold dmcTick; split <;> [skip; split <;> [skip; split]] <;> simp
@[simp] theorem dmcTick_turns (T : Nat) (s : State) : (dmcTick T s).turns = s.turns := by unfold dmcTick; split <;> [skip; split <;> [skip; split]] <;> simp

/-! ### What `runDue` leaves alone -/

@[simp] theorem runDue_cfg (T : Nat) (who : Due) (s : State) : (runDue T who s).cfg = s.cfg := by
  cases who with
  | seqTick => rcases andThen_cases (tick T s) (scheduleTick T) with ⟨_, e⟩ | ⟨_, e⟩ <;> simp [runDue, e]
  | triExpiry => simp [runDue]
  | dmcTick => simp [runDue]
@[simp] theorem runDue_lenEnable (T : Nat) (who : Due) (s : State) : (runDue T who s).lenEnable = s.lenEnable := by
  cases who with
  | seqTick => rcases andThen_cases (tick T s) (scheduleTick T) with ⟨_, e⟩ | ⟨_, e⟩ <;> simp [runDue, e]
  | triExpiry => simp [runDue]
  | dmcTick => simp [runDue]
@[simp] theorem runDue_noise (T : Nat) (who : Due) (s : State) : (runDue T who s).noise = s.noise := by
  cases who with
  | seqTick => rcases andThen_cases (tick T s) (scheduleTick T) with ⟨_, e⟩ | ⟨_, e⟩ <;> simp [runDue, e]
  | triExpiry => simp [runDue]
  | dmcTick => simp [runDue]
@[simp] theorem runDue_offset (T : Nat) (who : Due) (s : State) : (runDue T who s).offset = s.offset := by
  cases who with
  | seqTick => rcases andThen_cases (tick T s) (scheduleTick T) with ⟨_, e⟩ | ⟨_, e⟩ <;> simp [runDue, e]
  | triExpiry => simp [runDue]
  | dmcTick => simp [runDue]
@[simp] theorem runDue_lastTs (T : Nat) (who : Due) (s : State) : (runDue T who s).lastTs = s.lastTs := by
  cases who with
  | seqTick => rcases andThen_cases (tick T s) (scheduleTick T) with ⟨_, e⟩ | ⟨_, e⟩ <;> simp [runDue, e]
  | triExpiry => simp [runDue]
  | dmcTick => simp [runDue]
@[simp] theorem runDue_eofWait (T : Nat) (who : Due) (s : State) : (runDue T who s).eofWait = s.eofWait := by
  cases who with
  | seqTick => rcases andThen_cases (tick T s) (scheduleTick T) with ⟨_, e⟩ | ⟨_, e⟩ <;> simp [runDue, e]
  | triExpiry => simp [runDue]
  | dmcTick => simp [runDue]
@[simp] theorem runDue_mem (T : Nat) (who : Due) (s : State) : (runDue T who s).mem = s.mem := by
  cases who with
  | seqTick => rcases andThen_cases (tick T s) (scheduleTick T) with ⟨_, e⟩ | ⟨_, e⟩ <;> simp [runDue, e]
  | triExpiry => simp [runDue]
  | dmcTick => simp [runDue]
@[simp] theorem runDue_readPos (T : Nat) (who : Due) (s : State) : (runDue T who s).readPos = s.readPos := by
  cases who with
  | seqTick => rcases andThen_cases (tick T s) (scheduleTick T) with ⟨_, e⟩ | ⟨_, e⟩ <;> simp [runDue, e]
  | triExpiry => simp [runDue]
  | dmcTick => simp [runDue]
@[simp] theorem runDue_cmds (T : Nat) (who : Due) (s : State) : (runDue T who s).cmds = s.cmds := by
  cases who with
  | seqTick => rcases andThen_cases (tick T s) (scheduleTick T) with ⟨_, e⟩ | ⟨_, e⟩ <;> simp [runDue, e]
  | triExpiry => simp [runDue]
  | dmcTick => simp [runDue]
@[simp] theorem runDue_turns (T : Nat) (who : Due) (s : State) : (runDue T who s).turns = s.turns := by
  cases who with
  | seqTick => rcases andThen_cases (tick T s) (scheduleTick T) with ⟨_, e⟩ | ⟨_, e⟩ <;> simp [runDue, e]
  | triExpiry => simp [runDue]
  | dmcTick => simp [runDue]

/-! ### The sequencer's own fields -/

theorem frameFlag_seq (entry : BitVec 2) (s : State) :
    (frameFlag entry s).seq =
      { s.seq with
        frameIrq := if s.seq.mode = .fourStep ∧ entry = 3 ∧ s.seq.irqInhibit = false then true else s.seq.frameIrq } := by
  unfold frameFlag
  split <;> rfl

/-- A tick's effect on the sequencer: the flag and the step (R183, R184). -/
theorem clockUnits_seq (s : State) :
    (clockUnits s).seq =
      { s.seq with
        step := s.seq.step + 1
        frameIrq := if s.seq.mode = .fourStep ∧ s.seq.step = 3 ∧ s.seq.irqInhibit = false then true
          else s.seq.frameIrq } := by
  simp only [clockUnits, advanceStep_seq, frameFlag_seq, clockHalfStep_seq, clockLinear_seq, clockEnvelopes_seq]

theorem tick_seq (T : Nat) (s : State) : (tick T s).seq = (clockUnits s).seq := by
  unfold tick
  dsimp only
  split <;> simp

theorem tick_tri (T : Nat) (s : State) : (tick T s).tri = linearClocked s.tri := by
  unfold tick
  dsimp only
  split <;> simp [clockUnits]

theorem linearClocked_updateAt (t : Triangle) : (linearClocked t).updateAt = t.updateAt := rfl

/-- A tick is a `Sync` of a state that differs from its start in the units' fields only. -/
theorem tick_eq_sync (T : Nat) (s : State) :
    ∃ u, tick T s = sync T u ∧ u.cfg = s.cfg ∧ u.offset = s.offset ∧ u.fault = s.fault ∧
      u.pendingSample = s.pendingSample := by
  unfold tick
  dsimp only
  split
  · exact ⟨recomputeTri (clockUnits s), rfl, by simp, by simp, by simp, by simp⟩
  · exact ⟨clockUnits s, rfl, by simp, by simp, by simp, by simp⟩

theorem tick_fault_of_le {T : Nat} {s : State} (h : s.pendingSample ≤ sampleIndex T s) :
    (tick T s).fault = s.fault := by
  obtain ⟨u, e, hc, ho, hf, hp⟩ := tick_eq_sync T s
  rw [e, sync_fault_of_le (by rw [hp, sampleIndex_congr hc ho]; exact h), hf]

theorem tick_pendingSample_of_le {T : Nat} {s : State} (h : s.pendingSample ≤ sampleIndex T s) :
    (tick T s).pendingSample = sampleIndex T s := by
  obtain ⟨u, e, hc, ho, _, hp⟩ := tick_eq_sync T s
  rw [e, sync_pendingSample_of_le (by rw [hp, sampleIndex_congr hc ho]; exact h), sampleIndex_congr hc ho]

end Sys2Proof.Machine
end

