-- ==== Sys2Proof/Laws/CatchUp.lean ====
section
/-! SUPPORT. The catch-up (R103): what `nextDue` picks, what one event does to the three timers, the loop's induction,
and that its fuel is enough. -/

namespace Sys2Proof.Machine

/-! ### Picking the next event -/

theorem earliest_eq_none {l : List (Nat × Due)} : earliest l = none ↔ l = [] := by
  cases l with
  | nil => simp [earliest]
  | cons x rest =>
    simp only [earliest, reduceCtorEq, iff_false]
    split
    · simp
    · split <;> simp

theorem earliest_spec {l : List (Nat × Due)} {e : Nat × Due} (h : earliest l = some e) :
    e ∈ l ∧ ∀ x ∈ l, e.1 ≤ x.1 := by
  induction l generalizing e with
  | nil => simp [earliest] at h
  | cons x rest ih =>
    simp only [earliest] at h
    split at h
    · rename_i hr
      rw [earliest_eq_none] at hr
      subst hr
      obtain rfl : x = e := by simpa using h
      simp
    · rename_i y hr
      obtain ⟨hm, hle⟩ := ih hr
      split at h
      · rename_i hlt
        obtain rfl : y = e := by simpa using h
        refine ⟨List.mem_cons_of_mem _ hm, fun z hz => ?_⟩
        rcases List.mem_cons.mp hz with rfl | hz
        · omega
        · exact hle z hz
      · rename_i hlt
        obtain rfl : x = e := by simpa using h
        refine ⟨List.mem_cons_self, fun z hz => ?_⟩
        rcases List.mem_cons.mp hz with rfl | hz
        · omega
        · have := hle z hz; omega

/-- The time of an event in a state. -/
def dueAt (s : State) : Due → Option Nat
  | .seqTick => some s.seq.nextTick
  | .triExpiry => s.tri.updateAt
  | .dmcTick => s.dmc.nextCommit

theorem mem_schedule {s : State} {T : Nat} {who : Due} : (T, who) ∈ schedule s ↔ dueAt s who = some T := by
  cases who <;> simp [schedule, dueAt, eq_comm]

/-- What R103's choice gives: a due event, the least in time. -/
theorem nextDue_some {ts : Nat} {s : State} {T : Nat} {who : Due} (h : nextDue ts s = some (T, who)) :
    T ≤ ts ∧ dueAt s who = some T ∧ ∀ who' T', dueAt s who' = some T' → T ≤ T' := by
  obtain ⟨hm, hle⟩ := earliest_spec h
  rw [List.mem_filter, mem_schedule] at hm
  have hts : T ≤ ts := by simpa using hm.2
  refine ⟨hts, hm.1, fun who' T' h' => ?_⟩
  by_cases hd : T' ≤ ts
  · exact hle (T', who') (List.mem_filter.mpr ⟨mem_schedule.mpr h', by simpa using hd⟩)
  · omega

theorem nextDue_none {ts : Nat} {s : State} : nextDue ts s = none ↔ NoneDue ts s := by
  rw [nextDue, earliest_eq_none, List.filter_eq_nil_iff]
  constructor
  · intro h
    have key : ∀ who T, dueAt s who = some T → ts < T := fun who T hd => by
      have := h (T, who) (mem_schedule.mpr hd)
      simpa using this
    exact ⟨key .seqTick _ rfl, fun t ht => key .triExpiry t ht, fun t ht => key .dmcTick t ht⟩
  · rintro ⟨h1, h2, h3⟩ ⟨T, who⟩ hm
    rw [mem_schedule] at hm
    cases who
    · simp only [dueAt, Option.some.injEq] at hm; subst hm; simpa using h1
    · simpa using h2 T hm
    · simpa using h3 T hm

/-! ### The player's registers under a tick (R208) -/

/-- The fields of the player no tick writes. -/
structure SamePlayer (d d' : Dmc) : Prop where
  loop : d'.loop = d.loop
  irqEnable : d'.irqEnable = d.irqEnable
  rate : d'.rate = d.rate
  period : d'.period = d.period
  start : d'.start = d.start
  len : d'.len = d.len

theorem dmcPlayBit_player (T : Nat) (s : State) : SamePlayer s.dmc (dmcPlayBit T s).dmc := ⟨rfl, rfl, rfl, rfl, rfl, rfl⟩

theorem dmcPlayBit_nextCommit (T : Nat) (s : State) :
    (dmcPlayBit T s).dmc.nextCommit = some (T + s.dmc.period) := rfl

theorem dmcPlayBit_active (T : Nat) (s : State) : (dmcPlayBit T s).dmc.active = s.dmc.active := rfl

theorem dmcTick_player (T : Nat) (s : State) : SamePlayer s.dmc (dmcTick T s).dmc := by
  unfold dmcTick
  split
  · exact dmcPlayBit_player T s
  · split
    · exact ⟨rfl, rfl, rfl, rfl, rfl, rfl⟩
    · split <;> exact ⟨rfl, rfl, rfl, rfl, rfl, rfl⟩

/-- A tick parks the player or schedules the next tick one period on (R208, R210, R211). -/
theorem dmcTick_nextCommit (T : Nat) (s : State) :
    (dmcTick T s).dmc.nextCommit = none ∨ (dmcTick T s).dmc.nextCommit = some (T + s.dmc.period) := by
  unfold dmcTick
  split
  · exact .inr rfl
  · split
    · exact .inr rfl
    · split
      · exact .inr rfl
      · exact .inl rfl

/-! ### The timers under one event -/

@[simp] theorem triExpire_updateAt (T : Nat) (s : State) : (triExpire T s).tri = { s.tri with updateAt := none } := by
  simp [triExpire]

theorem runDue_seqTick {T : Nat} {s : State} (h : (tick T s).fault = none) :
    runDue T .seqTick s = scheduleTick T (tick T s) := andThen_ok h _

/-- The induction of the loop: what every event keeps, the catch-up keeps. -/
theorem catchUpLoop_keeps {P : State → Prop} {ts : Nat}
    (step : ∀ T who s, nextDue ts s = some (T, who) → P s → P (runDue T who s)) :
    ∀ (fuel : Nat) (s : State), P s → P (catchUpLoop ts fuel s) := by
  intro fuel
  induction fuel with
  | zero => exact fun s h => h
  | succ n ih =>
    intro s h
    simp only [catchUpLoop]
    split
    · exact h
    · rename_i T who hn
      exact andThen_keeps (step T who s hn h) fun _ h => ih _ h

theorem catchUp_keeps {P : State → Prop} {ts : Nat}
    (step : ∀ T who s, nextDue ts s = some (T, who) → P s → P (runDue T who s)) {s : State} (h : P s) :
    P (catchUp ts s) :=
  catchUpLoop_keeps step _ s h

/-- The same for the opening of a command, the timestamp check included. -/
theorem arrive_keeps {P : State → Prop} {ts : Nat} {s : State} (h : P s)
    (check : P s → P (checkTime ts s))
    (step : ∀ T who s, nextDue ts s = some (T, who) → P s → P (runDue T who s)) : P (arrive ts s) :=
  andThen_keeps (andThen_keeps h fun _ => check) fun _ h => catchUp_keeps step h

/-! ### The fuel is enough -/

/-- The step lengths are at least one cycle. -/
structure Moving (s : State) : Prop where
  step : 2 ≤ s.seq.stepP2
  period : 1 ≤ s.dmc.period

theorem stepLength_pos {q : Sequencer} (h : 2 ≤ q.stepP2) : 1 ≤ stepLength q := by
  unfold stepLength
  rw [Nat.shiftRight_eq_div_pow]
  omega

theorem Moving.of_seq_dmc {s s' : State} (h : Moving s) (hs : s'.seq.stepP2 = s.seq.stepP2)
    (hd : s'.dmc.period = s.dmc.period) : Moving s' :=
  ⟨hs ▸ h.step, hd ▸ h.period⟩

theorem runDue_moving {T : Nat} {who : Due} {s : State} (h : Moving s) : Moving (runDue T who s) := by
  cases who with
  | seqTick =>
    have ht : Moving (tick T s) := h.of_seq_dmc (by rw [tick_seq, clockUnits_seq]) (by simp)
    exact andThen_keeps ht fun _ h => h.of_seq_dmc rfl rfl
  | triExpiry => exact h.of_seq_dmc (by simp [runDue]) (by simp [runDue])
  | dmcTick => exact h.of_seq_dmc (by simp [runDue]) (dmcTick_player T s).period

/-- Each event moves its own time forward or disarms it, and touches no other. -/
theorem runDue_fuel {ts T : Nat} {who : Due} {s : State} (hm : Moving s) (hn : nextDue ts s = some (T, who))
    (hf : (runDue T who s).fault = none) : catchUpFuel ts (runDue T who s) < catchUpFuel ts s := by
  obtain ⟨hT, hd, -⟩ := nextDue_some hn
  cases who with
  | seqTick =>
    have hf' : (tick T s).fault = none := by
      rcases andThen_cases (tick T s) (scheduleTick T) with ⟨h, _⟩ | ⟨h, e⟩
      · exact h
      · exact absurd (by simpa [runDue, e] using hf) h
    obtain rfl : s.seq.nextTick = T := by simpa [dueAt] using hd
    have hp : 1 ≤ stepLength (tick s.seq.nextTick s).seq :=
      stepLength_pos (by rw [tick_seq, clockUnits_seq]; exact hm.step)
    simp only [runDue_seqTick hf', catchUpFuel, scheduleTick_seq, scheduleTick_tri, scheduleTick_dmc, tick_tri,
      linearClocked_updateAt, tick_dmc]
    omega
  | triExpiry =>
    simp only [dueAt] at hd
    simp [runDue, catchUpFuel, hd]
  | dmcTick =>
    simp only [dueAt] at hd
    have hp := hm.period
    rcases dmcTick_nextCommit T s with h | h
    · simp only [runDue, catchUpFuel, dmcTick_seq, dmcTick_tri, h, hd, timeLeft]; omega
    · simp only [runDue, catchUpFuel, dmcTick_seq, dmcTick_tri, h, hd, timeLeft]; omega

theorem catchUpLoop_done {ts : Nat} : ∀ (fuel : Nat) (s : State), Moving s → catchUpFuel ts s ≤ fuel →
    (catchUpLoop ts fuel s).fault = none → NoneDue ts (catchUpLoop ts fuel s) := by
  intro fuel
  induction fuel with
  | zero =>
    intro s hm hf _
    simp only [catchUpLoop]
    rw [← nextDue_none]
    by_contra hne
    obtain ⟨⟨T, who⟩, hn⟩ := Option.ne_none_iff_exists'.mp hne
    obtain ⟨hT, hd, -⟩ := nextDue_some hn
    cases who <;> simp only [dueAt, Option.some.injEq] at hd <;> simp [catchUpFuel, hd, timeLeft] at hf <;> omega
  | succ n ih =>
    intro s hm hf hok
    simp only [catchUpLoop] at hok ⊢
    split
    · exact nextDue_none.mp ‹_›
    · rename_i T who hn
      rw [hn] at hok
      simp only at hok
      rcases andThen_cases (runDue T who s) (catchUpLoop ts n) with ⟨h, e⟩ | ⟨h, e⟩
      · rw [e] at hok ⊢
        exact ih _ (runDue_moving hm) (by have := runDue_fuel hm hn h; omega) hok
      · rw [e] at hok
        exact absurd hok h

/-- After a catch-up that raises nothing, nothing is due at or before its timestamp (R103: `due is empty`). -/
theorem catchUp_done {ts : Nat} {s : State} (hm : Moving s) (hok : (catchUp ts s).fault = none) :
    NoneDue ts (catchUp ts s) :=
  catchUpLoop_done _ s hm (Nat.le_refl _) hok

/-- With nothing due, the catch-up does nothing. -/
theorem catchUp_of_noneDue {ts : Nat} {s : State} (h : NoneDue ts s) : catchUp ts s = s := by
  unfold catchUp
  cases catchUpFuel ts s with
  | zero => rfl
  | succ n => simp [catchUpLoop, nextDue_none.mpr h]

end Sys2Proof.Machine
end

