-- ==== Sys2Proof/Laws/Encoding.lean ====
section
/-! SUPPORT. The transport word (R81): its fields, what matching a row of the opcode table says, and that the rows do
not overlap. -/

namespace Sys2Proof

/-- One bit of a packed word, field by field. -/
theorem getLsbD_packWord (op reg v ts i : Nat) :
    (packWord op reg v ts).getLsbD i =
      if i < 32 then (BitVec.ofNat 32 ts).getLsbD i
      else if i - 32 < 8 then (BitVec.ofNat 8 v).getLsbD (i - 32)
      else if i - 40 < 16 then (BitVec.ofNat 16 reg).getLsbD (i - 40)
      else if i - 56 < 6 then false
      else (BitVec.ofNat 2 op).getLsbD (i - 62) := by
  unfold packWord
  simp only [BitVec.getLsbD_append, show i - 32 - 8 = i - 40 by omega, show i - 40 - 16 = i - 56 by omega,
    show i - 56 - 6 = i - 62 by omega, BitVec.getLsbD_zero]

/-- The five fields of R81 read back from a packed word. -/
theorem pack_fields (op reg v ts : Nat) :
   (packWord op reg v ts).extractLsb' 62 2 = BitVec.ofNat 2 op ∧ (packWord op reg v ts).extractLsb' 56 6 = 0 ∧
   (packWord op reg v ts).extractLsb' 40 16 = BitVec.ofNat 16 reg ∧ (packWord op reg v ts).extractLsb' 32 8 = BitVec.ofNat 8 v ∧
   (packWord op reg v ts).extractLsb' 0 32 = BitVec.ofNat 32 ts := by
  refine ⟨?_,?_,?_,?_,?_⟩ <;> apply BitVec.eq_of_getLsbD_eq <;> intro i hi <;>
    rw [BitVec.getLsbD_extractLsb', getLsbD_packWord, decide_eq_true hi, Bool.true_and]
  · rw [if_neg (by omega), if_neg (by omega), if_neg (by omega), if_neg (by omega), Nat.add_sub_cancel_left]
  · rw [if_neg (by omega), if_neg (by omega), if_neg (by omega), if_pos (by omega)]; simp
  · rw [if_neg (by omega), if_neg (by omega), if_pos (by omega), Nat.add_sub_cancel_left]
  · rw [if_neg (by omega), if_pos (by omega), Nat.add_sub_cancel_left]
  · rw [if_pos (by omega), Nat.zero_add]

/-- The verdict on a packed word, in terms of the fields it was packed from (R81). -/
theorem decode_pack (op reg v ts : Nat) (ho : op < 4) (hr : reg < 65536) (hv : v < 256) (ht : ts < 2^32) :
  decode (packWord op reg v ts) = (if op = 0 then decodePort reg ts v
  else if reg ≠ 0 ∨ v ≠ 0 then .error .bareFieldsSet
  else if op = 1 then .ok (.rdStatus ts)
  else if op = 2 then .ok (.force ts)
  else .ok (.eof ts)) := by
  obtain ⟨h1,h2,h3,h4,h5⟩ := pack_fields op reg v ts
  unfold decode
  simp only [h1,h2,h3,h4,h5, BitVec.toNat_ofNat]
  rw [Nat.mod_eq_of_lt (show op < 2^2 by omega), Nat.mod_eq_of_lt (show reg < 2^16 by omega), Nat.mod_eq_of_lt (show v < 2^8 by omega), Nat.mod_eq_of_lt ht]
  simp

/-- A word whose zero field is 0 is the pack of its fields. -/
theorem word_eq (w : CommandWord) (h : w.extractLsb' 56 6 = 0) :
  w = packWord (w.extractLsb' 62 2).toNat (w.extractLsb' 40 16).toNat (w.extractLsb' 32 8).toNat (w.extractLsb' 0 32).toNat := by
  unfold packWord
  simp only [BitVec.ofNat_toNat, BitVec.setWidth_eq]
  apply BitVec.eq_of_getLsbD_eq
  intro i hi
  simp only [BitVec.getLsbD_append, BitVec.getLsbD_extractLsb']
  by_cases a : i < 32
  · simp [a]
  · by_cases b : i - 32 < 8
    · simp [a, b, show 32 + (i - 32) = i by omega]
    · by_cases c : i - 32 - 8 < 16
      · simp [a,b,c, show 40 + (i - 32 - 8) = i by omega]
      · by_cases d : i - 32 - 8 -16 < 6
        · have := congrArg (fun x => x.getLsbD (i - 56)) h
          simp only [BitVec.getLsbD_extractLsb'] at this
          simp [show i - 56 < 6 by omega, show 56 + (i - 56) = i by omega] at this
          simp [a,b,c,d, this]
        · simp [a,b,c,d, show 62 + (i - 32 - 8 - 16 - 6) = i by omega, show i - 32 - 8 - 16 - 6 < 2 by omega]

/-- What matching a `WRITE` row says of the fields (R81). -/
theorem mask_write (w : CommandWord) (reg : Nat) (hr : reg < 24) :
   w &&& 0xFFFFFF0000000000 = BitVec.ofNat 64 (reg * 2^40) ↔
   (w.extractLsb' 56 6).toNat = 0 ∧ (w.extractLsb' 62 2).toNat = 0 ∧ (w.extractLsb' 40 16).toNat = reg := by
  have hm : (0xFFFFFF0000000000 : BitVec 64) = BitVec.allOnes 64 <<< 40 := by decide
  have hs : BitVec.ofNat 64 (reg * 2^40) = BitVec.ofNat 64 reg <<< 40 := by
    apply BitVec.eq_of_toNat_eq
    simp [BitVec.toNat_shiftLeft, Nat.shiftLeft_eq]
  rw [hm, hs]
  have hw := w.isLt
  have e1 : (w &&& BitVec.allOnes 64 <<< 40).toNat = w.toNat / 2^40 * 2^40 := by
    have : w &&& BitVec.allOnes 64 <<< 40 = (w >>> 40) <<< 40 := by
      apply BitVec.eq_of_getLsbD_eq
      intro i hi
      simp only [BitVec.getLsbD_and, BitVec.getLsbD_shiftLeft, BitVec.getLsbD_allOnes, BitVec.getLsbD_ushiftRight]
      by_cases h : i < 40
      · simp [h]
      · simp [h, hi, show 40 + (i - 40) = i by omega, show i - 40 < 64 by omega]
    rw [this]
    simp only [BitVec.toNat_shiftLeft, BitVec.toNat_ushiftRight, Nat.shiftRight_eq_div_pow, Nat.shiftLeft_eq]
    omega
  rw [← BitVec.toNat_inj, e1]
  simp only [BitVec.extractLsb'_toNat, Nat.shiftRight_eq_div_pow, BitVec.toNat_shiftLeft, BitVec.toNat_ofNat, Nat.shiftLeft_eq]
  omega

/-- What matching a row without operands says of the fields (R81). -/
theorem mask_bare (w : CommandWord) (op : Nat) (hr : op < 4) :
   w &&& 0xFFFFFFFF00000000 = BitVec.ofNat 64 (op * 2^62) ↔
   (w.extractLsb' 56 6).toNat = 0 ∧ (w.extractLsb' 62 2).toNat = op ∧ (w.extractLsb' 40 16).toNat = 0 ∧ (w.extractLsb' 32 8).toNat = 0 := by
  have hm : (0xFFFFFFFF00000000 : BitVec 64) = BitVec.allOnes 64 <<< 32 := by decide
  rw [hm]
  have hw := w.isLt
  have e1 : (w &&& BitVec.allOnes 64 <<< 32).toNat = w.toNat / 2^32 * 2^32 := by
    have : w &&& BitVec.allOnes 64 <<< 32 = (w >>> 32) <<< 32 := by
      apply BitVec.eq_of_getLsbD_eq
      intro i hi
      simp only [BitVec.getLsbD_and, BitVec.getLsbD_shiftLeft, BitVec.getLsbD_allOnes, BitVec.getLsbD_ushiftRight]
      by_cases h : i < 32
      · simp [h]
      · simp [h, hi, show 32 + (i - 32) = i by omega, show i - 32 < 64 by omega]
    rw [this]
    simp only [BitVec.toNat_shiftLeft, BitVec.toNat_ushiftRight, Nat.shiftRight_eq_div_pow, Nat.shiftLeft_eq]
    omega
  rw [← BitVec.toNat_inj, e1]
  simp only [BitVec.extractLsb'_toNat, Nat.shiftRight_eq_div_pow, BitVec.toNat_ofNat]
  omega

/-- A command's row is a row of the table. -/
theorem row_mem (i : Instr) : i.row ∈ opcodeRows := by
  cases i <;> simp [Instr.row, opcodeRows, opcodeRowsLow, opcodeRowsHigh]

/-- A packed `WRITE` matches its row. -/
theorem pack_matches_write (n : String) (reg v ts : Nat) (h : reg < 24) :
    packWord 0 reg v ts &&& (writeRow n reg).mask = (writeRow n reg).pattern := by
  obtain ⟨h1, h2, h3, -, -⟩ := pack_fields 0 reg v ts
  refine (mask_write _ _ h).mpr ⟨by rw [h2]; rfl, by rw [h1]; rfl, ?_⟩
  rw [h3, BitVec.toNat_ofNat]; omega

/-- A packed command without operands matches its row. -/
theorem pack_matches_bare (n : String) (op ts : Nat) (h : op < 4) :
    packWord op 0 0 ts &&& (bareRow n op).mask = (bareRow n op).pattern := by
  obtain ⟨h1, h2, h3, h4, -⟩ := pack_fields op 0 0 ts
  refine (mask_bare _ _ h).mpr ⟨by rw [h2]; rfl, ?_, by rw [h3]; rfl, by rw [h4]; rfl⟩
  rw [h1, BitVec.toNat_ofNat]; omega

/-- No word matches two rows: where two rows agree on the bits both fix, they are one row. -/
theorem rows_disjoint : ∀ r ∈ opcodeRows, ∀ r' ∈ opcodeRows,
    r.pattern &&& r'.mask = r'.pattern &&& r.mask → r = r' := by decide +kernel

/-- Every port of R82 decodes. -/
theorem decodePort_total {reg ts v : Nat} (h : reg < 24) : ∃ i, decodePort reg ts v = .ok i := by
  unfold decodePort
  interval_cases reg <;> exact ⟨_, rfl⟩

/-- The two kinds of row. -/
theorem row_kind {r : OpcodeRow} (h : r ∈ opcodeRows) :
    (∃ n reg, reg < 24 ∧ r = writeRow n reg) ∨ ∃ n op, op < 4 ∧ 1 ≤ op ∧ r = bareRow n op := by
  rcases List.mem_append.mp h with h | h
  · left
    rcases List.mem_append.mp h with h | h <;>
    · simp only [opcodeRowsLow, opcodeRowsHigh, List.mem_cons, List.not_mem_nil, or_false] at h
      casesm* _ ∨ _ <;> subst r <;> exact ⟨_, _, (by omega), rfl⟩
  · right
    simp only [List.mem_cons, List.not_mem_nil, or_false] at h
    rcases h with rfl | rfl | rfl <;> exact ⟨_, _, (by omega), (by omega), rfl⟩

end Sys2Proof
end

