-- ==== Sys2Proof/Laws/Exec.lean ====
section
/-! SUPPORT. Every command as one of two shapes (R104 to R107), and the induction over a step: what each piece of a
command keeps, a step keeps. -/

namespace Sys2Proof.Machine

/-- `PortEffect` of a `WRITE` (R104). -/
def portEffect : Instr → State → State
  | .p0Ctrl _ v => pulseCtrl .pulse0 (dataByte v)
  | .p0Sweep _ v => pulseSweep .pulse0 (dataByte v)
  | .p0Lo _ v => pulseLow .pulse0 (dataByte v)
  | .p0Hi _ v => pulseHigh .pulse0 (dataByte v)
  | .p1Ctrl _ v => pulseCtrl .pulse1 (dataByte v)
  | .p1Sweep _ v => pulseSweep .pulse1 (dataByte v)
  | .p1Lo _ v => pulseLow .pulse1 (dataByte v)
  | .p1Hi _ v => pulseHigh .pulse1 (dataByte v)
  | .triCtrl _ v => triControl (dataByte v)
  | .nop09 _ _ => noEffect
  | .triLo ts v => triLow ts (dataByte v)
  | .triHi ts v => triHigh ts (dataByte v)
  | .noiCtrl _ v => noiseCtrl (dataByte v)
  | .nop0D _ _ => noEffect
  | .noiMode _ v => noiseModeWrite (dataByte v)
  | .noiLen _ v => noiseLength (dataByte v)
  | .dmcCtrl _ v => dmcControl (dataByte v)
  | .dmcLevel ts v => dmcDirect ts (dataByte v)
  | .dmcAddr _ v => dmcStart (dataByte v)
  | .dmcLen _ v => dmcLength (dataByte v)
  | .nop14 _ _ => noEffect
  | .chEnable ts v => channelEnable ts (dataByte v)
  | .nop16 _ _ => noEffect
  | .seqCtrl ts v => seqControl ts (dataByte v)
  | .rdStatus _ => noEffect
  | .force _ => noEffect
  | .eof _ => noEffect

/-- The control bits a command stages after its `Sync` (R128, R232). -/
def portStage : Instr → Byte
  | .p0Ctrl _ _ => 0
  | .p0Sweep _ _ => 0
  | .p0Lo _ _ => 0
  | .p0Hi _ _ => phaseReset .pulse0
  | .p1Ctrl _ _ => 0
  | .p1Sweep _ _ => 0
  | .p1Lo _ _ => 0
  | .p1Hi _ _ => phaseReset .pulse1
  | .triCtrl _ _ => 0
  | .nop09 _ _ => 0
  | .triLo _ _ => 0
  | .triHi _ _ => 0
  | .noiCtrl _ _ => 0
  | .nop0D _ _ => 0
  | .noiMode _ _ => 0
  | .noiLen _ _ => 0
  | .dmcCtrl _ _ => 0
  | .dmcLevel _ _ => 0
  | .dmcAddr _ _ => 0
  | .dmcLen _ _ => 0
  | .nop14 _ _ => 0
  | .chEnable _ _ => 0
  | .nop16 _ _ => 0
  | .seqCtrl _ _ => 0
  | .rdStatus _ => 0
  | .force _ => 0
  | .eof _ => 0

/-- What a validated command does (R104 to R107). -/
def commandBody (i : Instr) (s : State) : State :=
  match i with
  | .rdStatus ts => andThen (arrive ts s) statusRead
  | .force ts => andThen (arrive ts s) (sync ts)
  | .eof ts => andThen (andThen (arrive ts s) (sync ts)) (enterWait ts)
  | i => andThen (andThen (andThen (arrive i.ts s) (portEffect i)) (sync i.ts)) (stageCtrl (portStage i))

/-- `exec` is R101's validation of that body. -/
theorem exec_eq (i : Instr) (s : State) : exec i s = validated i (commandBody i) s := by
  cases i <;> rfl

theorem exec_of_wf {i : Instr} (h : i.wf = true) (s : State) : exec i s = .next (commandBody i s) := by
  rw [exec_eq, validated, if_pos h]

/-- The two outcomes of a command. -/
theorem exec_cases (i : Instr) (s : State) :
    (i.wf = true ∧ exec i s = .next (commandBody i s)) ∨
    (i.wf = false ∧ exec i s = .refused (.operandsOutOfRange i)) := by
  rw [exec_eq, validated]
  cases h : i.wf <;> simp

theorem exec_next {i : Instr} {s t : State} (h : exec i s = .next t) : i.wf = true ∧ t = commandBody i s := by
  rcases exec_cases i s with ⟨hw, e⟩ | ⟨_, e⟩ <;> rw [e] at h
  · exact ⟨hw, by injection h with h; exact h.symm⟩
  · cases h

/-- What every piece of a command and every other turn keeps. -/
structure Closed (P : State → Prop) : Prop where
  check : ∀ ts s, P s → P (checkTime ts s)
  event : ∀ ts T who s, nextDue ts s = some (T, who) → P s → P (runDue T who s)
  effect : ∀ i s, P s → P (portEffect i s)
  sync : ∀ ts s, P s → P (sync ts s)
  stage : ∀ i s, P s → P (stageCtrl (portStage i) s)
  status : ∀ s, P s → P (statusRead s)
  enter : ∀ ts s, P s → P (enterWait ts s)
  pass : ∀ ts s, P s → P (passWait ts s)
  consumer : ∀ s, P s → P (consumerAdvance s)
  turns : ∀ s (l : List Turn), P s → P { s with turns := l }
  take : ∀ s, P s → P (takeCommand s)

theorem Closed.arrive {P : State → Prop} (C : Closed P) {ts : Nat} {s : State} (h : P s) : P (arrive ts s) :=
  arrive_keeps h (C.check ts s) (C.event ts)

theorem Closed.commandBody {P : State → Prop} (C : Closed P) (i : Instr) {s : State} (h : P s) :
    P (commandBody i s) := by
  have write : ∀ i, P (andThen (andThen (andThen (Machine.arrive i.ts s) (portEffect i)) (Machine.sync i.ts))
      (stageCtrl (portStage i))) := fun i =>
    andThen_keeps (andThen_keeps (andThen_keeps (C.arrive h) fun _ => C.effect i _) fun _ => C.sync _ _)
      fun _ => C.stage i _
  cases i with
  | rdStatus ts => exact andThen_keeps (C.arrive h) fun _ => C.status _
  | force ts => exact andThen_keeps (C.arrive h) fun _ => C.sync _ _
  | eof ts => exact andThen_keeps (andThen_keeps (C.arrive h) fun _ => C.sync _ _) fun _ => C.enter _ _
  | p0Ctrl ts v => exact write _
  | p0Sweep ts v => exact write _
  | p0Lo ts v => exact write _
  | p0Hi ts v => exact write _
  | p1Ctrl ts v => exact write _
  | p1Sweep ts v => exact write _
  | p1Lo ts v => exact write _
  | p1Hi ts v => exact write _
  | triCtrl ts v => exact write _
  | nop09 ts v => exact write _
  | triLo ts v => exact write _
  | triHi ts v => exact write _
  | noiCtrl ts v => exact write _
  | nop0D ts v => exact write _
  | noiMode ts v => exact write _
  | noiLen ts v => exact write _
  | dmcCtrl ts v => exact write _
  | dmcLevel ts v => exact write _
  | dmcAddr ts v => exact write _
  | dmcLen ts v => exact write _
  | nop14 ts v => exact write _
  | chEnable ts v => exact write _
  | nop16 ts v => exact write _
  | seqCtrl ts v => exact write _

theorem Closed.exec {P : State → Prop} (C : Closed P) {i : Instr} {s t : State} (h : P s)
    (ht : Machine.exec i s = .next t) : P t := by
  rw [(exec_next ht).2]
  exact C.commandBody i h

/-! ### One step -/

/-- Everything an engine or consumer turn can answer with a next state. -/
theorem step_cases {s t : State} (h : step s = .next t) :
    (∃ rest, s.turns = .consumer :: rest ∧ t = consumerAdvance { s with turns := rest }) ∨
    (s.turns.head? ≠ some .consumer ∧ s.fault = none ∧ ∃ ts, s.eofWait = some ts ∧
      t = passWait ts { s with turns := s.turns.tail }) ∨
    (s.turns.head? ≠ some .consumer ∧ s.fault = none ∧ s.eofWait = none ∧ s.cmds = [] ∧
      t = { s with turns := s.turns.tail }) ∨
    (s.turns.head? ≠ some .consumer ∧ s.fault = none ∧ s.eofWait = none ∧ ∃ w i, s.cmds.head? = some w ∧
      decode w = .ok i ∧ exec i { s with turns := s.turns.tail, cmds := s.cmds.tail } = .next t) := by
  have engine : ∀ s1 : State, s1 = { s with turns := s.turns.tail } →
      (match engineWork s1 with
        | .faulted f => Host.Outcome.fault f
        | .held ts => .next (passWait ts s1)
        | .idle => .next s1
        | .command w =>
          match decode w with
          | .error why => Host.Outcome.refused (Refusal.invalidWord w why)
          | .ok i => exec i (takeCommand s1)) = .next t →
      (s.fault = none ∧ ∃ ts, s.eofWait = some ts ∧ t = passWait ts { s with turns := s.turns.tail }) ∨
      (s.fault = none ∧ s.eofWait = none ∧ s.cmds = [] ∧ t = { s with turns := s.turns.tail }) ∨
      (s.fault = none ∧ s.eofWait = none ∧ ∃ w i, s.cmds.head? = some w ∧
        decode w = .ok i ∧ exec i { s with turns := s.turns.tail, cmds := s.cmds.tail } = .next t) := by
    rintro s1 rfl h
    have hw : engineWork { s with turns := s.turns.tail } =
        match s.fault, s.eofWait, s.cmds with
        | some f, _, _ => .faulted f
        | none, some t, _ => .held t
        | none, none, [] => .idle
        | none, none, w :: _ => .command w := rfl
    rw [hw] at h
    cases hf : s.fault with
    | some f => simp [hf] at h
    | none =>
      cases he : s.eofWait with
      | some ts =>
        simp only [hf, he] at h
        exact .inl ⟨rfl, ts, rfl, by injection h with h; exact h.symm⟩
      | none =>
        cases hc : s.cmds with
        | nil =>
          simp only [hf, he, hc] at h
          exact .inr (.inl ⟨rfl, rfl, rfl, by injection h with h; exact h.symm⟩)
        | cons w rest =>
          simp only [hf, he, hc] at h
          cases hd : decode w with
          | error why => simp [hd] at h
          | ok i =>
            simp only [hd] at h
            refine .inr (.inr ⟨rfl, rfl, w, i, rfl, hd, ?_⟩)
            simpa [takeCommand, hc] using h
  unfold step takeTurn at h
  cases ht : s.turns with
  | nil =>
    simp only [ht] at h
    rcases engine s (by cases s; simp_all) h with h | h | h
    · exact .inr (.inl ⟨by simp, by simpa [ht] using h⟩)
    · exact .inr (.inr (.inl ⟨by simp, by simpa [ht] using h⟩))
    · exact .inr (.inr (.inr ⟨by simp, by simpa [ht] using h⟩))
  | cons a rest =>
    cases a with
    | consumer =>
      simp only [ht] at h
      exact .inl ⟨rest, rfl, by injection h with h; exact h.symm⟩
    | engine =>
      simp only [ht] at h
      rcases engine { s with turns := rest } (by simp [ht]) h with h | h | h
      · exact .inr (.inl ⟨by simp, by simpa [ht] using h⟩)
      · exact .inr (.inr (.inl ⟨by simp, by simpa [ht] using h⟩))
      · exact .inr (.inr (.inr ⟨by simp, by simpa [ht] using h⟩))

theorem Closed.step {P : State → Prop} (C : Closed P) {s t : State} (h : P s) (ht : Machine.step s = .next t) : P t := by
  rcases step_cases ht with ⟨rest, -, rfl⟩ | ⟨-, -, ts, -, rfl⟩ | ⟨-, -, -, -, rfl⟩ | ⟨-, -, -, w, i, -, -, he⟩
  · exact C.consumer _ (C.turns _ _ h)
  · exact C.pass _ _ (C.turns _ _ h)
  · exact C.turns _ _ h
  · exact C.exec (s := { s with turns := s.turns.tail, cmds := s.cmds.tail }) (C.take _ (C.turns s s.turns.tail h)) he

end Sys2Proof.Machine
end

