-- ==== Sys2Proof/Laws/Fields.lean ====
section
/-! SUPPORT. Bit fields of a 16-bit word: what `setField` puts in and what it leaves (R13). -/

namespace Sys2Proof.Machine

/-- One bit of a word after a field is written. -/
theorem getLsbD_setField {n : Nat} (w : Word16) (lo : Nat) (v : BitVec n) (i : Nat) (hi : i < 16) :
    (setField w lo v).getLsbD i = if lo ≤ i ∧ i < lo + n then v.getLsbD (i - lo) else w.getLsbD i := by
  unfold setField
  simp only [BitVec.getLsbD_or, BitVec.getLsbD_and, BitVec.getLsbD_not, BitVec.getLsbD_shiftLeft,
    BitVec.getLsbD_setWidth, BitVec.getLsbD_allOnes, hi, decide_true, Bool.true_and]
  by_cases h1 : lo ≤ i
  · have h16 : i - lo < 16 := by omega
    by_cases h2 : i < lo + n
    · have : i - lo < n := by omega
      simp [h1, h2, h16, this, Nat.not_lt.mpr h1]
    · have : ¬ i - lo < n := by omega
      simp [h1, h2, h16, this, Nat.not_lt.mpr h1, BitVec.getLsbD_of_ge v (i - lo) (by omega)]
  · simp [h1, show i < lo by omega]

/-- One bit of a field. -/
theorem getLsbD_field (w : Word16) (lo n i : Nat) :
    (field w lo n).getLsbD i = (decide (i < n) && w.getLsbD (lo + i)) := by
  simp [field]

/-- The field just written reads back. -/
theorem field_setField_same {n : Nat} (w : Word16) (lo : Nat) (v : BitVec n) (h : lo + n ≤ 16) :
    field (setField w lo v) lo n = v := by
  apply BitVec.eq_of_getLsbD_eq
  intro i hi
  rw [getLsbD_field, getLsbD_setField _ _ _ _ (by omega)]
  simp [hi]

/-- A disjoint field is left alone. -/
theorem field_setField_disjoint {n : Nat} (w : Word16) (lo : Nat) (v : BitVec n) (lo' m : Nat) (h : lo' + m ≤ 16)
    (hd : lo' + m ≤ lo ∨ lo + n ≤ lo') : field (setField w lo v) lo' m = field w lo' m := by
  apply BitVec.eq_of_getLsbD_eq
  intro i hi
  rw [getLsbD_field, getLsbD_field, getLsbD_setField _ _ _ _ (by omega)]
  have : ¬ (lo ≤ lo' + i ∧ lo' + i < lo + n) := by omega
  simp [this]

/-- A field inside the one just written reads the part of the value that lies there. -/
theorem field_setField_inside {n : Nat} (w : Word16) (lo : Nat) (v : BitVec n) (lo' m : Nat) (h : lo + n ≤ 16)
    (hi : lo ≤ lo' ∧ lo' + m ≤ lo + n) : field (setField w lo v) lo' m = v.extractLsb' (lo' - lo) m := by
  apply BitVec.eq_of_getLsbD_eq
  intro i hm
  rw [getLsbD_field, getLsbD_setField _ _ _ _ (by omega)]
  have h2 : lo ≤ lo' + i ∧ lo' + i < lo + n := by omega
  simp [h2, hm, show lo' + i - lo = lo' - lo + i by omega]

/-- A bit outside the field just written is left alone. -/
theorem getLsbD_setField_outside {n : Nat} (w : Word16) (lo : Nat) (v : BitVec n) (i : Nat) (hi : i < 16)
    (h : i < lo ∨ lo + n ≤ i) : (setField w lo v).getLsbD i = w.getLsbD i := by
  rw [getLsbD_setField _ _ _ _ hi]
  have : ¬ (lo ≤ i ∧ i < lo + n) := by omega
  simp [this]

end Sys2Proof.Machine
end

