-- ==== Sys2Proof/Laws/PerInstr.lean ====
section
/-! SUPPORT. Statements made per instruction. -/

namespace Sys2Proof.Laws.TableRow

/-- R81: the command's row is a row of the opcode table, and the command's word, at any operands, matches it. -/
def Statement (i : Instr) : Prop := i.row ∈ opcodeRows ∧ encode i &&& i.row.mask = i.row.pattern

theorem p0Ctrl (ts v : Nat) : Statement (.p0Ctrl ts v) :=
  ⟨row_mem (.p0Ctrl ts v), pack_matches_write "P0_CTRL" 0x00 v ts (by omega)⟩

theorem p0Sweep (ts v : Nat) : Statement (.p0Sweep ts v) :=
  ⟨row_mem (.p0Sweep ts v), pack_matches_write "P0_SWEEP" 0x01 v ts (by omega)⟩

theorem p0Lo (ts v : Nat) : Statement (.p0Lo ts v) :=
  ⟨row_mem (.p0Lo ts v), pack_matches_write "P0_LO" 0x02 v ts (by omega)⟩

theorem p0Hi (ts v : Nat) : Statement (.p0Hi ts v) :=
  ⟨row_mem (.p0Hi ts v), pack_matches_write "P0_HI" 0x03 v ts (by omega)⟩

theorem p1Ctrl (ts v : Nat) : Statement (.p1Ctrl ts v) :=
  ⟨row_mem (.p1Ctrl ts v), pack_matches_write "P1_CTRL" 0x04 v ts (by omega)⟩

theorem p1Sweep (ts v : Nat) : Statement (.p1Sweep ts v) :=
  ⟨row_mem (.p1Sweep ts v), pack_matches_write "P1_SWEEP" 0x05 v ts (by omega)⟩

theorem p1Lo (ts v : Nat) : Statement (.p1Lo ts v) :=
  ⟨row_mem (.p1Lo ts v), pack_matches_write "P1_LO" 0x06 v ts (by omega)⟩

theorem p1Hi (ts v : Nat) : Statement (.p1Hi ts v) :=
  ⟨row_mem (.p1Hi ts v), pack_matches_write "P1_HI" 0x07 v ts (by omega)⟩

theorem triCtrl (ts v : Nat) : Statement (.triCtrl ts v) :=
  ⟨row_mem (.triCtrl ts v), pack_matches_write "TRI_CTRL" 0x08 v ts (by omega)⟩

theorem nop09 (ts v : Nat) : Statement (.nop09 ts v) :=
  ⟨row_mem (.nop09 ts v), pack_matches_write "NOP09" 0x09 v ts (by omega)⟩

theorem triLo (ts v : Nat) : Statement (.triLo ts v) :=
  ⟨row_mem (.triLo ts v), pack_matches_write "TRI_LO" 0x0A v ts (by omega)⟩

theorem triHi (ts v : Nat) : Statement (.triHi ts v) :=
  ⟨row_mem (.triHi ts v), pack_matches_write "TRI_HI" 0x0B v ts (by omega)⟩

theorem noiCtrl (ts v : Nat) : Statement (.noiCtrl ts v) :=
  ⟨row_mem (.noiCtrl ts v), pack_matches_write "NOI_CTRL" 0x0C v ts (by omega)⟩

theorem nop0D (ts v : Nat) : Statement (.nop0D ts v) :=
  ⟨row_mem (.nop0D ts v), pack_matches_write "NOP0D" 0x0D v ts (by omega)⟩

theorem noiMode (ts v : Nat) : Statement (.noiMode ts v) :=
  ⟨row_mem (.noiMode ts v), pack_matches_write "NOI_MODE" 0x0E v ts (by omega)⟩

theorem noiLen (ts v : Nat) : Statement (.noiLen ts v) :=
  ⟨row_mem (.noiLen ts v), pack_matches_write "NOI_LEN" 0x0F v ts (by omega)⟩

theorem dmcCtrl (ts v : Nat) : Statement (.dmcCtrl ts v) :=
  ⟨row_mem (.dmcCtrl ts v), pack_matches_write "DMC_CTRL" 0x10 v ts (by omega)⟩

theorem dmcLevel (ts v : Nat) : Statement (.dmcLevel ts v) :=
  ⟨row_mem (.dmcLevel ts v), pack_matches_write "DMC_LEVEL" 0x11 v ts (by omega)⟩

theorem dmcAddr (ts v : Nat) : Statement (.dmcAddr ts v) :=
  ⟨row_mem (.dmcAddr ts v), pack_matches_write "DMC_ADDR" 0x12 v ts (by omega)⟩

theorem dmcLen (ts v : Nat) : Statement (.dmcLen ts v) :=
  ⟨row_mem (.dmcLen ts v), pack_matches_write "DMC_LEN" 0x13 v ts (by omega)⟩

theorem nop14 (ts v : Nat) : Statement (.nop14 ts v) :=
  ⟨row_mem (.nop14 ts v), pack_matches_write "NOP14" 0x14 v ts (by omega)⟩

theorem chEnable (ts v : Nat) : Statement (.chEnable ts v) :=
  ⟨row_mem (.chEnable ts v), pack_matches_write "CH_ENABLE" 0x15 v ts (by omega)⟩

theorem nop16 (ts v : Nat) : Statement (.nop16 ts v) :=
  ⟨row_mem (.nop16 ts v), pack_matches_write "NOP16" 0x16 v ts (by omega)⟩

theorem seqCtrl (ts v : Nat) : Statement (.seqCtrl ts v) :=
  ⟨row_mem (.seqCtrl ts v), pack_matches_write "SEQ_CTRL" 0x17 v ts (by omega)⟩

theorem rdStatus (ts : Nat) : Statement (.rdStatus ts) :=
  ⟨row_mem (.rdStatus ts), pack_matches_bare "RD_STATUS" 1 ts (by omega)⟩

theorem force (ts : Nat) : Statement (.force ts) :=
  ⟨row_mem (.force ts), pack_matches_bare "FORCE" 2 ts (by omega)⟩

theorem eof (ts : Nat) : Statement (.eof ts) :=
  ⟨row_mem (.eof ts), pack_matches_bare "EOF" 3 ts (by omega)⟩

end Sys2Proof.Laws.TableRow
end

