-- ==== Sys2Proof/Laws/Stores.lean ====
section
/-! SUPPORT. The sparse stores: reads after writes, and that every memory operation keeps the canonical form. -/

namespace Sys2Proof.Machine

variable {α : Type}

theorem sparseRising_nil : sparseRising ([] : List (Nat × α)) := List.Pairwise.nil

theorem sparseRising_cons (a : Nat) (y : α) (m : List (Nat × α)) :
    sparseRising ((a, y) :: m) ↔ (∀ b ∈ m.map Prod.fst, a < b) ∧ sparseRising m := List.pairwise_cons

theorem sparseGet_put_same (k : Nat) (x : α) (m : List (Nat × α)) : sparseGet k (sparsePut k x m) = some x := by
  induction m with
  | nil => simp [sparsePut, sparseGet]
  | cons e rest ih =>
    obtain ⟨a, y⟩ := e
    simp only [sparsePut]
    split
    · simp [sparseGet]
    · split
      · simp [sparseGet]
      · rename_i h1 h2
        simp [sparseGet, Ne.symm h2, ih]

theorem sparseGet_put_other {k j : Nat} (x : α) (m : List (Nat × α)) (h : j ≠ k) :
    sparseGet j (sparsePut k x m) = sparseGet j m := by
  induction m with
  | nil => simp [sparsePut, sparseGet, Ne.symm h]
  | cons e rest ih =>
    obtain ⟨a, y⟩ := e
    simp only [sparsePut]
    split
    · simp [sparseGet, Ne.symm h]
    · split
      · rename_i h1 h2
        subst h2
        simp [sparseGet, Ne.symm h]
      · simp only [sparseGet, ih]

/-- Every key of a store after a write is the key written or one that was there. -/
theorem mem_sparsePut {k : Nat} {x : α} {m : List (Nat × α)} {e : Nat × α} (h : e ∈ sparsePut k x m) :
    e = (k, x) ∨ e ∈ m := by
  induction m with
  | nil => exact .inl (by simpa [sparsePut] using h)
  | cons d rest ih =>
    obtain ⟨a, y⟩ := d
    simp only [sparsePut] at h
    split at h
    · simpa using h
    · split at h
      · rcases List.mem_cons.mp h with h | h
        · exact .inl h
        · exact .inr (List.mem_cons_of_mem _ h)
      · rcases List.mem_cons.mp h with h | h
        · exact .inr (h ▸ List.mem_cons_self)
        · exact (ih h).imp_right (List.mem_cons_of_mem _)

theorem mem_sparseDrop {k : Nat} {m : List (Nat × α)} {e : Nat × α} (h : e ∈ sparseDrop k m) : e ∈ m := by
  induction m with
  | nil => exact h
  | cons d rest ih =>
    obtain ⟨a, y⟩ := d
    simp only [sparseDrop] at h
    split at h
    · exact List.mem_cons_of_mem _ h
    · rcases List.mem_cons.mp h with h | h
      · exact h ▸ List.mem_cons_self
      · exact List.mem_cons_of_mem _ (ih h)

theorem sparsePut_rising (k : Nat) (x : α) (m : List (Nat × α)) (h : sparseRising m) :
    sparseRising (sparsePut k x m) := by
  induction m with
  | nil => exact (sparseRising_cons k x []).mpr ⟨by simp, sparseRising_nil⟩
  | cons d rest ih =>
    obtain ⟨a, y⟩ := d
    rw [sparseRising_cons] at h
    simp only [sparsePut]
    split
    · rename_i hk
      simp only [sparseRising_cons, List.map_cons, List.mem_cons]
      refine ⟨?_, h.1, h.2⟩
      rintro b (rfl | hb)
      · exact hk
      · exact Nat.lt_trans hk (h.1 b hb)
    · split
      · rename_i h1 h2
        subst h2
        exact (sparseRising_cons _ _ _).mpr h
      · rename_i h1 h2
        rw [sparseRising_cons]
        refine ⟨?_, ih h.2⟩
        intro b hb
        obtain ⟨e, he, rfl⟩ := List.mem_map.mp hb
        rcases mem_sparsePut he with rfl | he
        · simp only; omega
        · exact h.1 _ (List.mem_map_of_mem he)

theorem sparseDrop_rising (k : Nat) (m : List (Nat × α)) (h : sparseRising m) : sparseRising (sparseDrop k m) := by
  induction m with
  | nil => exact h
  | cons d rest ih =>
    obtain ⟨a, y⟩ := d
    rw [sparseRising_cons] at h
    simp only [sparseDrop]
    split
    · exact h.2
    · rw [sparseRising_cons]
      refine ⟨?_, ih h.2⟩
      intro b hb
      obtain ⟨e, he, rfl⟩ := List.mem_map.mp hb
      exact h.1 _ (List.mem_map_of_mem (mem_sparseDrop he))

theorem sparseGet_drop_other {k j : Nat} (m : List (Nat × α)) (h : j ≠ k) :
    sparseGet j (sparseDrop k m) = sparseGet j m := by
  induction m with
  | nil => rfl
  | cons d rest ih =>
    obtain ⟨a, y⟩ := d
    simp only [sparseDrop]
    split
    · rename_i hk
      subst hk
      simp [sparseGet, Ne.symm h]
    · simp only [sparseGet, ih]

/-- A key below all of a rising store's keys is not listed. -/
theorem sparseGet_none_of_below {k : Nat} {m : List (Nat × α)} (h : ∀ b ∈ m.map Prod.fst, k < b) :
    sparseGet k m = none := by
  induction m with
  | nil => rfl
  | cons d rest ih =>
    obtain ⟨a, y⟩ := d
    have ha : k < a := h a (by simp)
    simp only [sparseGet, if_neg (Nat.ne_of_gt ha)]
    exact ih fun b hb => h b (by simp only [List.map_cons, List.mem_cons]; exact .inr hb)

theorem sparseGet_drop_same (k : Nat) (m : List (Nat × α)) (h : sparseRising m) :
    sparseGet k (sparseDrop k m) = none := by
  induction m with
  | nil => rfl
  | cons d rest ih =>
    obtain ⟨a, y⟩ := d
    rw [sparseRising_cons] at h
    simp only [sparseDrop]
    split
    · rename_i hk
      subst hk
      exact sparseGet_none_of_below h.1
    · rename_i hk
      simp [sparseGet, hk, ih h.2]

/-! ### The three stores -/

/-- Pinning a byte keeps the sample memory's canonical form. -/
theorem pinSample_wf (a : Word16) (b : Byte) (s : State) (h : s.mem.wf) : (pinSample a b s).mem.wf := by
  refine ⟨sparsePut_rising _ _ _ h.1, fun c hc => ?_⟩
  rcases mem_sparsePut hc with rfl | hc
  · exact a.isLt
  · exact h.2 c hc

/-- A slot write keeps the slot buffer's canonical form. -/
theorem slotWrite_wf (k : Nat) (r : Slot) (s : State) (h : s.slots.wf) : (slotWrite k r s).slots.wf :=
  sparsePut_rising _ _ _ h

/-- A delta write keeps the delta stream's canonical form. -/
theorem deltaPut_wf (i : Nat) (v : Int) (m : DeltaStream) (h : m.wf) : DeltaStream.wf (deltaPut i v m) := by
  unfold deltaPut
  split
  · exact ⟨sparseDrop_rising _ _ h.1, fun e he => h.2 e (mem_sparseDrop he)⟩
  · rename_i hv
    refine ⟨sparsePut_rising _ _ _ h.1, fun e he => ?_⟩
    rcases mem_sparsePut he with rfl | he
    · exact hv
    · exact h.2 e he

theorem deltaWrite_wf (i : Nat) (v : Int) (s : State) (h : s.deltas.wf) : (deltaWrite i v s).deltas.wf :=
  deltaPut_wf i v s.deltas h

/-- An entry written reads back, 0 among them. -/
theorem deltaAt_write_same (i : Nat) (v : Int) (s : State) (h : s.deltas.wf) :
    deltaAt i (deltaWrite i v s) = v := by
  simp only [deltaAt, deltaWrite_deltas, deltaPut]
  split
  · rename_i hv
    rw [sparseGet_drop_same _ _ h.1, hv]; rfl
  · rw [sparseGet_put_same]; rfl

/-- Every other entry is left alone. -/
theorem deltaAt_write_other {i j : Nat} (v : Int) (s : State) (h : j ≠ i) :
    deltaAt j (deltaWrite i v s) = deltaAt j s := by
  simp only [deltaAt, deltaWrite_deltas, deltaPut]
  split
  · rw [sparseGet_drop_other _ h]
  · rw [sparseGet_put_other _ _ h]

/-- A slot written reads back. -/
theorem slotAt_write_same (k : Nat) (r : Slot) (s : State) : slotAt k (slotWrite k r s) = some r :=
  sparseGet_put_same _ _ _

/-- Every other slot is left alone. -/
theorem slotAt_write_other {k j : Nat} (r : Slot) (s : State) (h : j ≠ k) :
    slotAt j (slotWrite k r s) = slotAt j s :=
  sparseGet_put_other _ _ h

end Sys2Proof.Machine
end

