-- ==== Sys2Proof/Laws/Served.lean ====
section
/-! SUPPORT. What a served command leaves: the shape of a `WRITE`'s result, and its FIFO side. -/

namespace Sys2Proof.Machine

/-- An effect that leaves alone what the `Sync` after it reads and writes on the FIFO side, but for the events `pre` it
reports. -/
structure Quiet (pre : List Event) (c e : State) : Prop where
  cfg : e.cfg = c.cfg
  offset : e.offset = c.offset
  fault : e.fault = c.fault
  pending : e.pending = c.pending
  pendingCtrl : e.pendingCtrl = c.pendingCtrl
  pendingSample : e.pendingSample = c.pendingSample
  writeCursor : e.writeCursor = c.writeCursor
  slots : e.slots = c.slots
  events : e.events = c.events ++ pre

theorem Quiet.sampleIndex {pre : List Event} {c e : State} (q : Quiet pre c e) (ts : Nat) :
    sampleIndex ts e = sampleIndex ts c := sampleIndex_congr q.cfg q.offset ts

theorem Quiet.pendingSlot {pre : List Event} {c e : State} (q : Quiet pre c e) : pendingSlot e = pendingSlot c := by
  simp [Machine.pendingSlot, q.pending, q.pendingCtrl, q.pendingSample]

/-- The `Sync` after a quiet effect, and the staging after it, leave the FIFO side R226 and R232 describe. -/
theorem synced_of_quiet {ts : Nat} {bits : Byte} {pre : List Event} {c e : State} (q : Quiet pre c e)
    (h : c.pendingSample ≤ sampleIndex ts c) : Synced ts bits pre c (stageCtrl bits (sync ts e)) := by
  have hi := q.sampleIndex ts
  rcases sync_cases ts e with ⟨h1, _⟩ | ⟨h1, he⟩ | ⟨h1, he⟩
  · rw [hi, q.pendingSample] at h1; omega
  · have h2 : sampleIndex ts c = c.pendingSample := by rw [← hi, h1, q.pendingSample]
    rw [he]
    refine ⟨?_, rfl, ?_, fun _ => ⟨?_, ?_, fun k => ?_⟩, fun hne => absurd h2 hne⟩
    · simp [hi]
    · simp [q.events, flushEvents, h2]
    · simp [q.pendingCtrl]
    · simp [q.writeCursor]
    · simp [slotAt, q.slots]
  · have h2 : sampleIndex ts c ≠ c.pendingSample := by rw [← hi, ← q.pendingSample]; omega
    rw [he]
    refine ⟨?_, rfl, ?_, fun he => absurd he h2, fun _ => ⟨?_, ?_, ?_, fun k hk => ?_⟩⟩
    · simp [hi]
    · simp [q.events, flushEvents, h2, q.writeCursor, q.pendingSlot]
    · simp
    · simp [q.writeCursor, q.cfg]
    · simp [slotAt, q.writeCursor, q.pendingSlot, q.slots, sparseGet_put_same]
    · simp only [slotAt, stageCtrl_slots, rebuild_slots, flush_slots, q.writeCursor, q.slots]
      exact sparseGet_put_other _ _ hk

/-- A command the spec serves as a `WRITE` gives its effect, then its `Sync`, then its control bits (R104). -/
theorem exec_write {i : Instr} {s : State} {eff : State → State} {bits : Byte} {pre : List Event}
    (hx : exec i s = writeCommand i eff bits s) (h : Served i s) (q : Quiet pre (arrive i.ts s) (eff (arrive i.ts s))) :
    exec i s = .next (stageCtrl bits (sync i.ts (eff (arrive i.ts s)))) := by
  have hf : (eff (arrive i.ts s)).fault = none := by rw [q.fault, h.caughtUp]
  have hs : (sync i.ts (eff (arrive i.ts s))).fault = none := by
    rw [sync_fault_of_le (by rw [q.sampleIndex, q.pendingSample]; exact h.inOrder), hf]
  rw [hx, writeCommand, validated, if_pos h.wf, andThen_ok h.caughtUp, andThen_ok hf, andThen_ok hs]

/-- A `Sync` differs from the state it starts in by its FIFO side and a fault. -/
theorem sync_eq_withFifo {ts : Nat} {s : State} (h : s.pendingSample ≤ sampleIndex ts s) :
    sync ts s = withFifo s (sync ts s) := by
  rcases sync_cases ts s with ⟨h1, _⟩ | ⟨_, e⟩ | ⟨_, e⟩
  · omega
  · rw [e]; rfl
  · rw [e]; rfl

end Sys2Proof.Machine
end

