-- ==== Sys2Proof/Laws/Ticks.lean ====
section
/-! SUPPORT. What a tick does to the envelopes and the sweeps (R183), that more fuel than needed changes no catch-up
(R103), a second `Sync` at one index (R226), and the shifts as divisions (R181, R245, R252). -/

namespace Sys2Proof.Machine

/-- Under a configuration R7 allows every scheduled event moves its own time forward. -/
theorem Configured.moving {s : State} (h : Configured s) : Moving s := by
  refine ⟨?_, ?_⟩
  · rw [h.stepP2]
    cases s.seq.mode
    · exact h.cfg.stepFour
    · exact h.cfg.stepFive
  · rw [h.period]
    exact h.cfg.rate ⟨s.dmc.rate.toNat, s.dmc.rate.isLt⟩

/-! ### The units under a tick -/

/-- The fields of an envelope no clock writes. -/
theorem envelopeClocked_kept (e : Envelope) :
    (envelopeClocked e).period = e.period ∧ (envelopeClocked e).constant = e.constant ∧
      (envelopeClocked e).loop = e.loop := by
  unfold envelopeClocked
  repeat' split
  all_goals exact ⟨rfl, rfl, rfl⟩

/-- The fields of a sweep no clock writes. -/
theorem sweepClocked_kept (w : Sweep) :
    (sweepClocked w).period = w.period ∧ (sweepClocked w).enabled = w.enabled ∧
      (sweepClocked w).negate = w.negate ∧ (sweepClocked w).shift = w.shift := by
  unfold sweepClocked
  split <;> exact ⟨rfl, rfl, rfl, rfl⟩

theorem clockUnits_env (s : State) (e : EnvIx) : (clockUnits s).env.get e = envelopeClocked (s.env.get e) := by
  simp only [clockUnits, advanceStep_env, frameFlag_env, clockHalfStep_env, clockLinear_env]
  cases e <;> rfl

/-- Every tick clocks every envelope. -/
theorem tick_env (T : Nat) (s : State) (e : EnvIx) : (tick T s).env.get e = envelopeClocked (s.env.get e) := by
  rw [← clockUnits_env]
  unfold tick
  dsimp only
  split <;> simp

theorem clockSweep_sweep (p : PulseIx) (s : State) :
    (clockSweep p s).sweep = s.sweep.set p (sweepClocked (s.sweep.get p)) := by
  unfold clockSweep
  dsimp only
  split <;> simp [sweepUpdate_sweep]

/-- A sweep's clock writes its own channel's Cache word only. -/
theorem clockSweep_cache_other (p : PulseIx) (s : State) (ch : Chan) (h : ch ≠ p.chan) :
    (clockSweep p s).cache.get ch = s.cache.get ch := by
  unfold clockSweep
  dsimp only
  split
  · unfold sweepUpdate
    split <;> simp [h]
  · rfl

/-- What a sweep's clock leaves of its channel's word depends on the sweep and that word alone. -/
theorem clockSweep_cache_congr {p : PulseIx} {s u : State} (hs : s.sweep.get p = u.sweep.get p)
    (hc : s.cache.get p.chan = u.cache.get p.chan) :
    (clockSweep p s).cache.get p.chan = (clockSweep p u).cache.get p.chan := by
  unfold clockSweep
  dsimp only
  rw [hs]
  split
  · unfold sweepUpdate
    rw [hs, hc]
    split <;> simp [hc]
  · exact hc

theorem clockHalfStep_sweep (e : BitVec 2) (s : State) (p : PulseIx) :
    (clockHalfStep e s).sweep.get p =
      if e.getLsbD 0 = false then sweepClocked (s.sweep.get p) else s.sweep.get p := by
  unfold clockHalfStep
  split
  · simp only [clockSweeps, clockSweep_sweep, clockLengths, clockLength_sweep]
    cases p <;> rfl
  · rfl

/-- A tick clocks the sweeps when its entry step is even. -/
theorem tick_sweep (T : Nat) (s : State) (p : PulseIx) :
    (tick T s).sweep.get p =
      if s.seq.step.getLsbD 0 = false then sweepClocked (s.sweep.get p) else s.sweep.get p := by
  have : (tick T s).sweep = (clockUnits s).sweep := by
    unfold tick
    dsimp only
    split <;> simp
  rw [this]
  simp only [clockUnits, advanceStep_sweep, frameFlag_sweep, clockHalfStep_sweep, clockLinear_sweep,
    clockEnvelopes_sweep]

/-- The fields of the triangle no tick writes. -/
theorem tick_tri_kept (T : Nat) (s : State) :
    (tick T s).tri.period = s.tri.period ∧ (tick T s).tri.control = s.tri.control := by
  rw [tick_tri]
  exact ⟨rfl, rfl⟩

/-- A `Sync` at the index it was last called for only rebuilds Pending (R226). -/
theorem sync_of_same_index {ts : Nat} {s : State} (h : sampleIndex ts s = s.pendingSample) :
    sync ts s = rebuild (sampleIndex ts s) s := by
  rcases sync_cases ts s with ⟨h1, _⟩ | ⟨_, e⟩ | ⟨h1, _⟩
  · omega
  · exact e
  · omega

/-- Staging no control bit changes nothing. -/
theorem stageCtrl_zero (s : State) : stageCtrl 0 s = s := by
  cases s
  simp [stageCtrl]

/-! ### More fuel changes nothing -/

/-- Without fuel left nothing is due. -/
theorem nextDue_of_no_fuel {ts : Nat} {s : State} (h : catchUpFuel ts s = 0) : nextDue ts s = none := by
  by_contra hne
  obtain ⟨⟨T, who⟩, hn⟩ := Option.ne_none_iff_exists'.mp hne
  obtain ⟨hT, hd, -⟩ := nextDue_some hn
  cases who <;> simp only [dueAt, Option.some.injEq] at hd <;> simp [catchUpFuel, hd, timeLeft] at h <;> omega

/-- Any two amounts of fuel that are enough run the same events. -/
theorem catchUpLoop_stable {ts : Nat} :
    ∀ (n m : Nat) (s : State), Moving s → catchUpFuel ts s ≤ n → catchUpFuel ts s ≤ m →
      catchUpLoop ts n s = catchUpLoop ts m s := by
  have stuck : ∀ (k : Nat) (s : State), nextDue ts s = none → catchUpLoop ts k s = s := by
    intro k s h
    cases k <;> simp [catchUpLoop, h]
  intro n
  induction n with
  | zero =>
    intro m s _ hn _
    have h := nextDue_of_no_fuel (Nat.le_zero.mp hn)
    rw [stuck _ _ h, stuck _ _ h]
  | succ n ih =>
    intro m s hm hn hm'
    cases h : nextDue ts s with
    | none => rw [stuck _ _ h, stuck _ _ h]
    | some e =>
      obtain ⟨T, who⟩ := e
      cases m with
      | zero =>
        rw [nextDue_of_no_fuel (Nat.le_zero.mp hm')] at h
        cases h
      | succ m =>
        simp only [catchUpLoop, h]
        rcases andThen_cases (runDue T who s) (catchUpLoop ts n) with ⟨hf, e⟩ | ⟨hf, e⟩
        · rw [e, andThen_ok hf]
          have := runDue_fuel hm h hf
          exact ih m _ (runDue_moving hm) (by omega) (by omega)
        · rw [e, andThen_fault hf]

/-! ### The shifts of the bridge as divisions -/

theorem shifts_eq (ts n : Nat) : (ts >>> n) <<< n = ts / 2 ^ n * 2 ^ n := by
  rw [Nat.shiftRight_eq_div_pow, Nat.shiftLeft_eq]

theorem stepLength_eq (q : Sequencer) : stepLength q = (q.stepP2 + q.half.toNat) / 2 := by
  simp [stepLength, Nat.shiftRight_eq_div_pow]

theorem rebaseAmount_eq (ts : Nat) : rebaseAmount ts = ts / 2 ^ 21 * 2 ^ 21 := shifts_eq ts 21

theorem sampleIndex_eq (t : Nat) (s : State) : sampleIndex t s = (t * s.cfg.scale + s.offset) / 2 ^ 21 :=
  Nat.shiftRight_eq_div_pow _ _

end Sys2Proof.Machine
end

