-- ==== Sys2Proof/Tests/Slice0.lean ====
section
/-! SUPPORT. Checks of the model's own work: the well-formedness smoke, the decoder on words written out from R81 and
R82, one step per command with the values of 95_test_vectors.md, and a witness for every statement with hypotheses. -/

namespace Sys2Proof.Tests

open Sys2Proof Sys2Proof.Machine

/-! ### WellFormed (R101) -/

/-- A timestamp of 2^32 is refused in every command. -/
theorem test_wf_timestamp :
    ([.p0Ctrl (2 ^ 32) 0, .p0Sweep (2 ^ 32) 0, .p0Lo (2 ^ 32) 0, .p0Hi (2 ^ 32) 0, .p1Ctrl (2 ^ 32) 0,
      .p1Sweep (2 ^ 32) 0, .p1Lo (2 ^ 32) 0, .p1Hi (2 ^ 32) 0, .triCtrl (2 ^ 32) 0, .nop09 (2 ^ 32) 0,
      .triLo (2 ^ 32) 0, .triHi (2 ^ 32) 0, .noiCtrl (2 ^ 32) 0, .nop0D (2 ^ 32) 0, .noiMode (2 ^ 32) 0,
      .noiLen (2 ^ 32) 0, .dmcCtrl (2 ^ 32) 0, .dmcLevel (2 ^ 32) 0, .dmcAddr (2 ^ 32) 0, .dmcLen (2 ^ 32) 0,
      .nop14 (2 ^ 32) 0, .chEnable (2 ^ 32) 0, .nop16 (2 ^ 32) 0, .seqCtrl (2 ^ 32) 0, .rdStatus (2 ^ 32),
      .force (2 ^ 32), .eof (2 ^ 32)] : List Instr).all (fun i => !i.wf) = true := by decide

/-- A data byte of 256 is refused in every `WRITE`. -/
theorem test_wf_value :
    ([.p0Ctrl 0 256, .p0Sweep 0 256, .p0Lo 0 256, .p0Hi 0 256, .p1Ctrl 0 256, .p1Sweep 0 256, .p1Lo 0 256,
      .p1Hi 0 256, .triCtrl 0 256, .nop09 0 256, .triLo 0 256, .triHi 0 256, .noiCtrl 0 256, .nop0D 0 256,
      .noiMode 0 256, .noiLen 0 256, .dmcCtrl 0 256, .dmcLevel 0 256, .dmcAddr 0 256, .dmcLen 0 256, .nop14 0 256,
      .chEnable 0 256, .nop16 0 256, .seqCtrl 0 256] : List Instr).all (fun i => !i.wf) = true := by decide

/-- The largest operands are commands. -/
theorem test_wf_accepts : (Instr.p0Ctrl (2 ^ 32 - 1) 255).wf = true ∧ (Instr.eof (2 ^ 32 - 1)).wf = true := by decide

/-! ### Decode: `op << 62 | reg << 40 | value << 32 | ts`, the ports of R82 -/

theorem test_decode_pulse0 :
    decode 0x0000001F00000000 = .ok (.p0Ctrl 0 0x1F) ∧ decode 0x0000010800000000 = .ok (.p0Sweep 0 0x08) ∧
    decode 0x000002FD0000000A = .ok (.p0Lo 10 0xFD) ∧ decode 0x000003080000000A = .ok (.p0Hi 10 0x08) := by
  decide +kernel

theorem test_decode_pulse1 :
    decode 0x00000458000001F4 = .ok (.p1Ctrl 500 0x58) ∧ decode 0x0000058A00000005 = .ok (.p1Sweep 5 0x8A) ∧
    decode 0x00000699000001F4 = .ok (.p1Lo 500 0x99) ∧ decode 0x00000709000001F5 = .ok (.p1Hi 501 0x09) := by
  decide +kernel

theorem test_decode_triangle :
    decode 0x0000088500000000 = .ok (.triCtrl 0 0x85) ∧ decode 0x000009FF00000000 = .ok (.nop09 0 0xFF) ∧
    decode 0x00000A3400000032 = .ok (.triLo 50 0x34) ∧ decode 0x00000B090000003C = .ok (.triHi 60 0x09) := by
  decide +kernel

theorem test_decode_noise :
    decode 0x00000C3A00000000 = .ok (.noiCtrl 0 0x3A) ∧ decode 0x00000D0000000000 = .ok (.nop0D 0 0) ∧
    decode 0x00000E8500000000 = .ok (.noiMode 0 0x85) ∧ decode 0x00000F1800000014 = .ok (.noiLen 20 0x18) := by
  decide +kernel

theorem test_decode_dmc :
    decode 0x0000108F00000000 = .ok (.dmcCtrl 0 0x8F) ∧ decode 0x000011FF00000029 = .ok (.dmcLevel 41 0xFF) ∧
    decode 0x0000120100000000 = .ok (.dmcAddr 0 0x01) ∧ decode 0x0000130400000000 = .ok (.dmcLen 0 0x04) := by
  decide +kernel

theorem test_decode_control :
    decode 0x0000140100000100 = .ok (.nop14 256 1) ∧ decode 0x00001510000003E8 = .ok (.chEnable 1000 0x10) ∧
    decode 0x0000168000000001 = .ok (.nop16 1 0x80) ∧ decode 0x000017C000000064 = .ok (.seqCtrl 100 0xC0) := by
  decide +kernel

theorem test_decode_bare :
    decode 0x40000000000003E9 = .ok (.rdStatus 1001) ∧ decode 0x8000000000000029 = .ok (.force 41) ∧
    decode 0xC000000000200008 = .ok (.eof 2097160) := by decide +kernel

theorem test_decode_rejects :
    decode 0x0000180000000000 = .error (.noSuchPort 0x18) ∧ decode 0x0000FF0000000000 = .error (.noSuchPort 0xFF) ∧
    decode 0x0100000000000000 = .error .zeroFieldSet ∧ decode 0x4000000100000000 = .error .bareFieldsSet ∧
    decode 0x8000010000000000 = .error .bareFieldsSet := by decide +kernel

/-! ### One step per command (T0, from reset unless said otherwise) -/

/-- The state a command leaves. -/
def after (i : Instr) (s : State) : State :=
  match exec i s with
  | .next t => t
  | .fault _ => s
  | .refused _ => s

/-- The reset state with all length counters enabled (V-LEN1). -/
def enabled : State := { State.reset with lenEnable := ⟨true, true, true, true⟩ }

/-- The reset state with all four counters at 254. -/
def sounding : State := { State.reset with length := ⟨254, 254, 254, 254⟩ }

/-- S1b, V-NOI1: the constant volume goes to the nibble, the duty to word 3. -/
theorem test_p0Ctrl :
    (after (.p0Ctrl 0 0x1F) .reset).cache.pulse0 = 0x000F ∧
    (after (.p0Ctrl 0 0x1F) .reset).env.pulse0 = ⟨15, 0, 0, true, false, false⟩ ∧
    (after (.p0Ctrl 0 0x80) .reset).cache.noise = 0x0400 := by decide

/-- V-FIFO1: duty 1, constant, volume 8. -/
theorem test_p1Ctrl :
    (after (.p1Ctrl 0 0x58) .reset).cache.pulse1 = 0x0008 ∧
    (after (.p1Ctrl 0 0x58) .reset).cache.noise = 0x0800 := by decide

/-- V-SWP3's byte: enabled, period 1, add, shift 2, reload. -/
theorem test_p0Sweep : (after (.p0Sweep 0 0x92) .reset).sweep = ⟨⟨1, 0, true, false, 2, true⟩, .reset⟩ := by decide

/-- V-SWP1's byte, on channel 1: enabled, period 0, negate, shift 1, reload. -/
theorem test_p1Sweep : (after (.p1Sweep 0 0x89) .reset).sweep = ⟨.reset, ⟨0, 0, true, true, 1, true⟩⟩ := by decide

/-- V-MUTE rows 1 and 2: period 7 is muted, 8 is not. -/
theorem test_p0Lo :
    (after (.p0Lo 0 0x07) sounding).cache.pulse0 = 0x0070 ∧ (after (.p0Lo 0 0x07) sounding).pending.pulse0 = 0 ∧
    (after (.p0Lo 0 0x08) sounding).pending.pulse0 = 0x0080 := by decide

/-- The low byte keeps the high bits and the nibble. -/
theorem test_p1Lo :
    (after (.p1Lo 0 0x99) { sounding with cache := ⟨0, 0x200A, 0, 0⟩ }).cache.pulse1 = 0x299A := by decide

/-- V-LEN1 and V-MUTE rows 4 and 10: the load under the enable, the phase reset, the mute past 0x7FF. -/
theorem test_p0Hi :
    (after (.p0Hi 0 0x0C) enabled).length.pulse0 = 254 ∧ (after (.p0Hi 0 0x0C) enabled).cache.pulse0 = 0x4000 ∧
    (after (.p0Hi 0 0x0C) enabled).pending.pulse0 = 0 ∧ (after (.p0Hi 0 0x0C) enabled).pendingCtrl = 1 ∧
    (after (.p0Hi 0 0x08) .reset).length.pulse0 = 0 ∧ (after (.p0Hi 0 0x08) .reset).env.pulse0.reload = true := by
  decide

/-- V-FIFO1's last high byte of pulse 1. -/
theorem test_p1Hi :
    (after (.p1Hi 0 0x0A) enabled).cache.pulse1 = 0x2000 ∧ (after (.p1Hi 0 0x0A) enabled).length.pulse1 = 254 ∧
    (after (.p1Hi 0 0x0A) enabled).pendingCtrl = 2 := by decide

theorem test_triCtrl : (after (.triCtrl 0 0x85) .reset).tri.control = 0x85 := by decide

/-- V-TRI1: the delay is armed 100 cycles on, the slot of sample 0 goes out. -/
theorem test_triLo :
    (after (.triLo 50 0x34) .reset).tri.period = 0x034 ∧ (after (.triLo 50 0x34) .reset).tri.updateAt = some 150 ∧
    (after (.triLo 50 0x34) .reset).events = [.slot 0 ⟨0, 0, 0, 0, 0, 0⟩] := by decide

/-- V-TRI1: the second write replaces the delay and keeps the low byte. -/
theorem test_triHi :
    (after (.triHi 60 0x09) { enabled with tri := ⟨0x034, 3, 0, false, some 150⟩ }).tri =
      ⟨0x134, 3, 0, true, some 160⟩ ∧
    (after (.triHi 60 0x09) { enabled with tri := ⟨0x034, 3, 0, false, some 150⟩ }).length.tri = 254 := by decide

/-- V-NOI1: loop, constant, period 10. -/
theorem test_noiCtrl :
    (after (.noiCtrl 0 0x3A) .reset).env.noise = ⟨10, 0, 0, true, true, false⟩ ∧
    (after (.noiCtrl 0 0x3A) .reset).cache.noise = 0x000A := by decide

/-- V-NOI1: mode and frequency; T0's generator counts the rising edges, and a free one moves by its own function. -/
theorem test_noiMode :
    (after (.noiMode 0 0x85) .reset).cache.noise = 0x0150 ∧
    (after (.noiMode 0 0x85) .reset).noise.prng = 1 ∧
    (after (.noiMode 0 0x83) { State.reset with noise := ⟨true, 5⟩ }).noise = ⟨true, 5⟩ ∧
    (after (.noiMode 0 0x85) (.resetOf { Config.t0 with prngAdvance := .free 7 })).noise.prng =
      Config.prngAdvance 7 0 :=
  ⟨by decide, by decide, by decide, rfl⟩

/-- V-NOI1: index 3 loads 2. -/
theorem test_noiLen :
    (after (.noiLen 20 0x18) enabled).length.noise = 2 ∧ (after (.noiLen 20 0x18) enabled).env.noise.reload = true ∧
    (after (.noiLen 20 0x18) enabled).pendingCtrl = 0 := by decide

/-- V-DMC1: irq-enable, no loop, rate 15 of period 54. -/
theorem test_dmcCtrl :
    (after (.dmcCtrl 0 0x8F) .reset).dmc.irqEnable = true ∧ (after (.dmcCtrl 0 0x8F) .reset).dmc.loop = false ∧
    (after (.dmcCtrl 0 0x8F) .reset).dmc.period = 54 := by decide

/-- V-DMC5: the second load of a sample rewrites its sum; 0xFF is masked to 127. -/
theorem test_dmcLevel :
    (after (.dmcLevel 5 0x30) (after (.dmcLevel 0 0x40) .reset)).events = [.delta 0 64, .delta 0 48] ∧
    (after (.dmcLevel 5 0x30) (after (.dmcLevel 0 0x40) .reset)).deltas = [(0, 48)] ∧
    (after (.dmcLevel 0 0xFF) .reset).dmc.level = 127 := by decide

theorem test_dmcAddr : (after (.dmcAddr 0 0xFF) .reset).dmc.start = 0xFF := by decide

theorem test_dmcLen : (after (.dmcLen 0 0x04) .reset).dmc.len = 4 := by decide

/-- V-DMC4: cursor and byte count of a start; V-DMC1: the first tick one period on; the triangle's delay. -/
theorem test_chEnable :
    let s := { State.reset with dmc := { State.reset.dmc with start := 0xFF, len := 4, period := 54 } }
    (after (.chEnable 1000 0x10) s).dmc.cursor = 0xFFC0 ∧ (after (.chEnable 1000 0x10) s).dmc.bytesRem = 65 ∧
    (after (.chEnable 1000 0x10) s).dmc.nextCommit = some 1054 ∧
    (after (.chEnable 1000 0x10) s).tri.updateAt = some 1100 := by decide

/-- V-LEN2: a cleared bit forces its counter to 0, the others keep theirs. -/
theorem test_chEnable_disables :
    (after (.chEnable 0 0x0D) sounding).length = ⟨254, 0, 254, 254⟩ ∧
    (after (.chEnable 0 0x0D) sounding).lenEnable = ⟨true, false, true, true⟩ := by decide

/-- V-SEQ2: five-step mode with the immediate tick; the next natural tick at 9420. -/
theorem test_seqCtrl_five :
    (after (.seqCtrl 100 0xC0) .reset).seq = ⟨1, .fiveStep, 18641, true, 9420, true, false⟩ := by decide

/-- V-SEQ3: the inhibit clears a set flag; 7457 cycles to the next tick. -/
theorem test_seqCtrl_inhibit :
    (after (.seqCtrl 30 0x40) { State.reset with seq := ⟨2, .fourStep, 14915, false, 50, false, true⟩ }).seq =
      ⟨0, .fourStep, 14915, true, 7487, true, false⟩ := by decide

/-- V-EP3: the ports without a behaviour do what `FORCE` does. -/
theorem test_nops :
    after (.nop16 41 0x80) .reset = after (.force 41) .reset ∧ after (.nop09 41 0x55) .reset = after (.force 41) .reset ∧
    after (.nop0D 41 0) .reset = after (.force 41) .reset ∧ after (.nop14 41 1) .reset = after (.force 41) .reset := by
  decide

/-- S1a, V-EP3: the first command of sample period 1 writes the slot tagged 0. -/
theorem test_force :
    (after (.force 41) .reset).events = [.slot 0 ⟨0, 0, 0, 0, 0, 0⟩] ∧ (after (.force 41) .reset).pendingSample = 1 ∧
    (after (.force 41) .reset).writeCursor = 1 ∧ (after (.force 40) .reset).events = [] := by decide

/-- V-LEN2 at 29830: the frame flag and the noise channel read 0x48; the flag is cleared. -/
theorem test_rdStatus :
    let s := { State.reset with length := ⟨0, 0, 0, 2⟩, seq := { State.reset.seq with frameIrq := true } }
    (after (.rdStatus 10) s).events = [.status 0x48] ∧ (after (.rdStatus 10) s).seq.frameIrq = false := by decide

/-- V-BR5: below 2^21 a flush and no move. -/
theorem test_eof :
    (after (.eof 50) .reset).events = [.slot 0 ⟨0, 0, 0, 0, 0, 0⟩] ∧ (after (.eof 50) .reset).offset = 0 ∧
    (after (.eof 50) .reset).eofWait = none := by decide

/-- P4: a lead of 1031 holds; seven consumer turns lift it. -/
theorem test_eof_held :
    let t := after (.eof 50) { State.reset with writeCursor := 1031, pendingSample := 1 }
    t.eofWait = some 50 ∧ (passWait 50 { t with readPos := 6 }).eofWait = some 50 ∧
    (passWait 50 { t with readPos := 7 }).eofWait = none := by decide

/-- V-BR3: the rebase at 2500050 moves every stored time by 2097152. -/
theorem test_rebase :
    let s := { State.reset with
      seq := { State.reset.seq with nextTick := 2505720 }
      tri := { State.reset.tri with updateAt := some 2500100 }
      lastTs := 2500050 }
    (rebase 2500050 s).seq.nextTick = 408568 ∧ (rebase 2500050 s).tri.updateAt = some 402948 ∧
    (rebase 2500050 s).lastTs = 402898 ∧ (rebase 2500050 s).offset = 108368232448 := by decide

/-- V-FLT1: a timestamp before the last raises code 1 and changes nothing else. -/
theorem test_timingViolation :
    exec (.p0Lo 99 0x33) { State.reset with lastTs := 100 } =
      .next { State.reset with lastTs := 100, fault := some (.timingViolation 99 100) } := rfl

/-- V-FLT1: after the fault no command runs; V-FLT2: a word of no command is refused. -/
theorem test_step_stops :
    step { State.reset with fault := some (.timingViolation 99 100) } = .fault (.timingViolation 99 100) ∧
    step (State.reset.withFetchWord 64 0x0000180000000000) =
      .refused (.invalidWord 0x0000180000000000 (.noSuchPort 0x18)) ∧
    exec (.p0Lo 0 256) .reset = .refused (.operandsOutOfRange (.p0Lo 0 256)) := ⟨rfl, rfl, rfl⟩

/-- The word fetched is the word run, whatever stood in its way. -/
theorem test_withFetchWord :
    step ({ State.reset with turns := [.consumer], eofWait := some 3 }.withFetchWord 64 0x8000000000000029) =
      .next (after (.force 41) { State.reset with turns := [.consumer] }) := rfl

/-! ### Units -/

/-- V-SWP1 at tick 1: channel 0 subtracts one more. -/
theorem test_sweep_negate :
    let s := { State.reset with cache := ⟨0x100F, 0x100F, 0, 0⟩,
                                sweep := ⟨⟨0, 0, true, true, 1, false⟩, ⟨0, 0, true, true, 1, false⟩⟩ }
    (clockSweeps s).cache.pulse0 = 0x07FF ∧ (clockSweeps s).cache.pulse1 = 0x080F := by decide

/-- V-SWP2 at ticks 1 and 11: 0x100 to 0x180, and 0x798 stays for the overflow. -/
theorem test_sweep_add :
    let s := { State.reset with sweep := ⟨⟨0, 0, true, false, 1, false⟩, .reset⟩ }
    (clockSweep .pulse0 { s with cache := ⟨0x100F, 0, 0, 0⟩ }).cache.pulse0 = 0x180F ∧
    (clockSweep .pulse0 { s with cache := ⟨0x798F, 0, 0, 0⟩ }).cache.pulse0 = 0x798F := by decide

/-- V-TRI1 at tick 1: the linear counter reloads and the word appears. -/
theorem test_tick_triangle :
    let s := { State.reset with tri := ⟨0x134, 3, 0, true, none⟩, length := ⟨0, 0, 254, 0⟩ }
    (tick 7457 s).tri = ⟨0x134, 3, 3, false, none⟩ ∧ (tick 7457 s).length.tri = 253 ∧
    (tick 7457 s).cache.tri = 0x1340 := by decide

/-- V-SEQ1: the tick that enters with step 3 sets the flag, at 29830. -/
theorem test_tick_frameFlag :
    (tick 29830 { State.reset with seq := { State.reset.seq with step := 3 } }).seq.frameIrq = true ∧
    (tick 22372 { State.reset with seq := { State.reset.seq with step := 2 } }).seq.frameIrq = false := by decide

/-- V-DMC1 and V-DMC2: a pinned byte is fetched and its low bit played; no crossing of 127. -/
theorem test_dmcTick :
    let s := { State.reset with mem := [(0xC000, 0xD5)],
                                dmc := { State.reset.dmc with cursor := 0xC000, bytesRem := 1, period := 54 } }
    (dmcTick 1054 s).events = [.fetch 0xC000 0xD5, .delta 25 2] ∧ (dmcTick 1054 s).dmc.cursor = 0xC001 ∧
    (dmcTick 1054 s).dmc.bitsRem = 7 ∧ bitLevel true 126 = 126 ∧ bitDelta true 126 = 0 := by decide

/-- V-EP1's order: a tick and a player tick due at the same time; then a tick and an expiry (V-EP2). -/
theorem test_nextDue_ties :
    nextDue 7457 { State.reset with dmc := { State.reset.dmc with nextCommit := some 7457 } } = some (7457, .seqTick) ∧
    nextDue 7457 { State.reset with tri := { State.reset.tri with updateAt := some 7457 } } = some (7457, .seqTick) := by
  decide

/-- V-BR1. -/
theorem test_sampleIndex :
    sampleIndex 40 .reset = 0 ∧ sampleIndex 41 .reset = 1 ∧ sampleIndex 7457 .reset = 183 ∧
    sampleIndex 4294967295 .reset = 105828351 := by decide +kernel

/-! ### Witnesses: for every statement with hypotheses, a state and operands that meet them -/

/-- What `Served` asks, as a check that evaluates. -/
def servedCheck (i : Instr) (s : State) : Bool :=
  i.wf && s.fault == none && s.eofWait == none && decide (s.lastTs ≤ i.ts) && (arrive i.ts s).fault == none &&
    decide ((arrive i.ts s).pendingSample ≤ sampleIndex i.ts (arrive i.ts s))

theorem served_of_check {i : Instr} {s : State} (h : servedCheck i s = true) : Served i s := by
  simp only [servedCheck, Bool.and_eq_true, beq_iff_eq, decide_eq_true_eq] at h
  obtain ⟨⟨⟨⟨⟨h1, h2⟩, h3⟩, h4⟩, h5⟩, h6⟩ := h
  exact ⟨⟨h1, h2, h3, h4⟩, h5, h6⟩

theorem reset_configured : Configured State.reset := by
  refine ⟨?_, rfl, rfl⟩
  constructor <;> decide

theorem reset_timely : Timely State.reset := by
  constructor
  · constructor <;> simp [State.reset, State.resetOf, Config.t0]
  all_goals simp [State.reset, State.resetOf]

/-- `DecodeOfEncodeGivesTheCommand`, `OutOfRangeOperandsAreRefused` (both ways). -/
theorem witness_wf : (Instr.p0Hi (2 ^ 32 - 1) 255).wf = true ∧ (Instr.p0Hi (2 ^ 32 - 1) 256).wf = false ∧
    (Instr.p0Hi (2 ^ 32) 255).wf = false ∧ (Instr.eof (2 ^ 32 - 1)).wf = true := by decide

/-- `EncodeOfDecodeGivesTheWord`, `DecoderAcceptsExactlyTheTableRows`: the largest valid word. -/
theorem witness_decode : decode 0xC0000000FFFFFFFF = .ok (.eof 4294967295) := by decide +kernel

/-- `StepRunsTheDecodedCommand`. -/
theorem witness_step_runs :
    let s := { State.reset with cmds := [0x8000000000000029] }
    s.turns.head? ≠ some .consumer ∧ s.fault = none ∧ s.eofWait = none ∧ s.cmds = 0x8000000000000029 :: [] ∧
      decode 0x8000000000000029 = .ok (.force 41) ∧ decodeTableWord 64 0x8000000000000029 = some (.force 41) := by
  decide +kernel

/-- `StepOfTheOtherTurns`, the consumer's turn, disabled and enabled. -/
theorem witness_step_consumer :
    ({ State.reset with turns := [.consumer] } : State).readPos =
      ({ State.reset with turns := [.consumer] } : State).writeCursor ∧
    ({ State.reset with turns := [.consumer], writeCursor := 1 } : State).readPos ≠
      ({ State.reset with turns := [.consumer], writeCursor := 1 } : State).writeCursor := by decide

/-- `StepOfTheOtherTurns`, the engine's: the lead at 1025 and at 1024, an idle state, an invalid word, a fault. -/
theorem witness_step_engine :
    State.reset.turns.head? ≠ some .consumer ∧
    State.reset.cfg.leadSlots < lead { State.reset with writeCursor := 1025, eofWait := some 0 } ∧
    lead { State.reset with writeCursor := 1024, eofWait := some 0 } ≤ State.reset.cfg.leadSlots ∧
    decode 0x0000180000000000 = .error (.noSuchPort 24) := by decide +kernel

theorem witness_runOver : runOver State.reset := ⟨rfl, rfl, rfl⟩

/-- `EarlierTimestampRaisesTheViolation`, one cycle before. -/
theorem witness_violation : (Instr.force 99).wf = true ∧ (Instr.force 99).ts < ({ State.reset with lastTs := 100 } : State).lastTs ∧
    ({ State.reset with lastTs := 100 } : State).fault = none := by decide

/-- `TimelyCommandIsServed`. -/
theorem witness_timely : Configured State.reset ∧ Timely State.reset ∧ Ready (.force 0) State.reset :=
  ⟨reset_configured, reset_timely, ⟨by decide, rfl, rfl, by decide⟩⟩

/-- `CatchUpRunsEventsInOrder`, nothing due at 7456; the sequencer's event at 7457. -/
theorem witness_catchUp_none : NoneDue 7456 State.reset ∧ State.reset.fault = none ∧ State.reset.lastTs ≤ 7456 := by
  refine ⟨⟨by decide, ?_, ?_⟩, by decide⟩ <;> intro t h <;> cases h

theorem witness_catchUp_tick : Configured State.reset ∧ nextDue 7457 State.reset = some (7457, .seqTick) ∧
    (runDue 7457 .seqTick State.reset).fault = none := ⟨reset_configured, by decide, by decide⟩

/-- `CatchUpRunsEventsInOrder`: a tick that raises nothing, and one that does. -/
theorem witness_tick_fault : (tick 7457 State.reset).fault = none ∧
    (tick 0 { State.reset with pendingSample := 1 }).fault ≠ none := by decide

/-- `CatchUpRunsEventsInOrder`, `CatchUpPicksTheEarliestEvent`: the other two events, at the boundary of being due. -/
theorem witness_catchUp_others :
    let a := { State.reset with tri := { State.reset.tri with updateAt := some 100 } }
    let b := { State.reset with dmc := { State.reset.dmc with nextCommit := some 100 } }
    nextDue 100 a = some (100, .triExpiry) ∧ nextDue 99 a = none ∧ (runDue 100 .triExpiry a).fault = none ∧
    nextDue 100 b = some (100, .dmcTick) ∧ nextDue 99 b = none ∧ (runDue 100 .dmcTick b).fault = none := by decide

/-- The statements on the ports of a pulse: each is served at the largest operands after the first tick. -/
theorem witness_pulse_ports :
    (∀ i ∈ [pulseCtrlOf .pulse0 7457 255, pulseCtrlOf .pulse1 7457 255, pulseSweepOf .pulse0 7457 255,
      pulseSweepOf .pulse1 7457 255, pulseLowOf .pulse0 7457 255, pulseLowOf .pulse1 7457 255,
      pulseHighOf .pulse0 7457 255, pulseHighOf .pulse1 7457 255], servedCheck i State.reset = true) := by decide

/-- The statements on the triangle's, the noise's and the player's ports. -/
theorem witness_other_ports :
    (∀ i ∈ [Instr.triCtrl 7457 255, .triLo 7457 255, .triHi 7457 255, .noiCtrl 7457 255, .noiMode 7457 255,
      .noiLen 7457 255, .dmcCtrl 7457 255, .dmcLevel 7457 255, .dmcAddr 7457 255, .dmcLen 7457 255],
      servedCheck i State.reset = true) := by decide

/-- The statements on the control ports and the other commands. -/
theorem witness_control_ports :
    (∀ i ∈ [Instr.chEnable 7457 255, .seqCtrl 7457 255, .seqCtrl 7457 127, .force 7457, .rdStatus 7457, .eof 7457],
      servedCheck i State.reset = true) := by decide

/-- The check gives the hypothesis itself. -/
theorem witness_served : Served (.force 7457) State.reset := served_of_check (by decide)

/-- `PlayerLevelWrite`, `PlayerTickPlaysOneBit`, `StepKeepsTheStoresCanonical`. -/
theorem witness_deltas : ({ State.reset with deltas := [(0, 48), (1, -48)] } : State).deltas.wf := by decide

/-- `ChannelEnableWrite`'s three cases: the player idle, playing, and stopped. -/
theorem witness_enable :
    (BitVec.ofNat 8 0x10).getLsbD 4 = true ∧ (BitVec.ofNat 8 0x0F).getLsbD 4 = false ∧
    (arrive 0 State.reset).dmc.bytesRem = 0 ∧
    (arrive 0 { State.reset with dmc := { State.reset.dmc with bytesRem := 1 } }).dmc.bytesRem ≠ 0 := by decide

/-- `EndOfFrameFlushesAndRebases` at a lead of 1024 after the flush, `EndOfFrameIsHeldWhileTheLeadIsTooGreat` at
1025. -/
theorem witness_eof :
    let a := { State.reset with writeCursor := 1023 }
    let b := { State.reset with writeCursor := 1024 }
    servedCheck (.eof 41) a = true ∧ lead (sync 41 (arrive 41 a)) ≤ a.cfg.leadSlots ∧
    servedCheck (.eof 41) b = true ∧ b.cfg.leadSlots < lead (sync 41 (arrive 41 b)) := by decide

/-- `HoldLiftsAfterExactlyTheExcessLead` at both ends of `k`. -/
theorem witness_hold :
    let s := { State.reset with writeCursor := 1031, eofWait := some 50 }
    s.readPos < s.cfg.nslots ∧ s.writeCursor < s.cfg.nslots ∧ s.eofWait = some 50 ∧ 0 ≤ lead s ∧ 1031 ≤ lead s := by
  decide

/-- `EnvelopeClock`'s five cases, `EnvelopeDecaysOneLevelEveryPeriodPlusOneClocks` in both modes. -/
theorem witness_envelope :
    let e : Envelope := ⟨15, 0, 0, false, false, true⟩
    e.reload = true ∧ { e with reload := false, divider := 1 }.divider ≠ 0 ∧
    { e with reload := false, level := 1 }.level ≠ 0 ∧ { e with loop := true }.loop = true ∧ e.loop = false := by
  decide

/-- `SweepUpdateCalculation`'s cases at their boundaries: 7 and 8, 2047 and 2048. -/
theorem witness_sweep :
    (field (0x0070 : Word16) 4 11).toNat < 8 ∧ 8 ≤ (field (0x0080 : Word16) 4 11).toNat ∧
    (field (0x5550 : Word16) 4 11).toNat + (field (0x5550 : Word16) 4 11).toNat / 2 ^ 1 = 2047 ∧
    2047 < (field (0x5560 : Word16) 4 11).toNat + (field (0x5560 : Word16) 4 11).toNat / 2 ^ 1 := by decide

/-- `LengthClock`: a halted channel and one that counts. -/
theorem witness_length : halted .tri { State.reset with tri := { State.reset.tri with control := 0x80 } } = true ∧
    halted .tri State.reset = false := by decide

/-- `LinearCounterAndTriangleWord`: a sounding triangle, each of the two gates, an index that does not go back. -/
theorem witness_triangle :
    let s := { State.reset with length := ⟨0, 0, 1, 0⟩, tri := ⟨0x7FF, 0, 1, false, none⟩ }
    s.length.tri ≠ 0 ∧ s.tri.linear ≠ 0 ∧ State.reset.length.tri = 0 ∧ State.reset.tri.linear = 0 ∧
    s.pendingSample ≤ sampleIndex 0 s := by decide

/-- `TickClocksTheUnits` on an even and an odd entry step, from no fault and an index that does not go back. -/
theorem witness_tick :
    State.reset.fault = none ∧ State.reset.pendingSample ≤ sampleIndex 0 State.reset ∧
    State.reset.seq.step.getLsbD 0 = false ∧
    ({ State.reset.seq with step := 3 } : Sequencer).step.getLsbD 0 = true := by decide

/-- `SuccessiveStepsSumToStepP2`: both values of `half`. -/
theorem witness_half : ({ State.reset.seq with half := false } : Sequencer).half = false ∧
    State.reset.seq.half = true := by decide

/-- `PlayerTickPlaysOneBit`, `PlayerTickFetchesRestartsOrCompletes`. -/
theorem witness_player :
    ({ State.reset.dmc with bitsRem := 1 } : Dmc).bitsRem ≠ 0 ∧ State.reset.dmc.bitsRem = 0 ∧
    ({ State.reset.dmc with bytesRem := 1 } : Dmc).bytesRem ≠ 0 ∧ State.reset.dmc.bytesRem = 0 ∧
    State.reset.dmc.loop = false ∧ ({ State.reset.dmc with loop := true } : Dmc).loop = true := by decide

/-- `SyncFlushesThenRebuilds`: the index equal to Pending's, and one below it. -/
theorem witness_sync : ({ State.reset with pendingSample := 1 } : State).pendingSample ≤ sampleIndex 41 State.reset ∧
    sampleIndex 40 State.reset < ({ State.reset with pendingSample := 1 } : State).pendingSample := by decide

/-- `StagedPulseWordIsMutedOrTheCacheWord`, `StagedTriangleAndNoiseWords`: muted and not. -/
theorem witness_staged :
    State.reset.length.get .pulse0 = 0 ∧ sounding.length.noise ≠ 0 ∧ State.reset.length.noise = 0 ∧
    stagedPulse .pulse0 { sounding with cache := ⟨0x555F, 0, 0, 0⟩, sweep := ⟨{ Sweep.reset with shift := 1 }, .reset⟩ } =
      0x555F := by decide

/-- `LaterWriteOfAPeriodWins`: both writes at the edges of sample period 1, the flush at its end. -/
theorem witness_coalescing :
    Ready (pulseLowOf .pulse0 41 0x30) State.reset ∧ NoneDue 82 State.reset ∧
    State.reset.pendingSample ≤ sampleIndex 41 State.reset ∧ sampleIndex 41 State.reset = sampleIndex 81 State.reset ∧
    sampleIndex 81 State.reset < sampleIndex 82 State.reset := by
  refine ⟨⟨by decide, rfl, rfl, by decide⟩, ⟨by decide, ?_, ?_⟩, by decide⟩ <;> intro t h <;> cases h

/-- `PhaseResetGoesOutWithTheNewPeriod`. -/
theorem witness_phaseReset :
    Ready (pulseHighOf .pulse0 41 0x09) State.reset ∧ NoneDue 82 State.reset ∧
    State.reset.pendingSample < sampleIndex 41 State.reset ∧
    sampleIndex 41 State.reset < sampleIndex 82 State.reset := by
  refine ⟨⟨by decide, rfl, rfl, by decide⟩, ⟨by decide, ?_, ?_⟩, by decide⟩ <;> intro t h <;> cases h

/-- `SampleIndexIsMonotoneAndRebaseProof`. -/
theorem witness_index : 40 ≤ 41 ∧ 2097152 ≤ 2097152 := by decide

/-- `RebaseIsTransparentToEveryCommand`, at the first time the move allows. -/
theorem witness_rebase :
    let s := { State.reset with lastTs := 2097152, seq := { State.reset.seq with nextTick := 2103015 } }
    Ready (.force 2097152) s ∧ TimesFrom 2097152 s ∧ Instr.force 2097152 ≠ .eof (Instr.force 2097152).ts ∧
      ∃ t, exec (.force 2097152) s = .next t := by
  refine ⟨⟨by decide, rfl, rfl, by decide⟩, ⟨by decide, by decide, ?_, ?_⟩, by decide, ⟨_, exec_of_wf (by decide) _⟩⟩ <;>
    intro t h <;> cases h

/-- The invariants of the `StepKeeps` statements, at reset, and a command that steps from it. -/
theorem witness_invariants :
    Configured State.reset ∧ Timely State.reset ∧ Canonical State.reset ∧ Formatted State.reset ∧
      PlayerBounded State.reset ∧ TagsRising State.reset ∧
      ∃ t, step (State.reset.withFetchWord 64 0x8000000000000029) = .next t := by
  refine ⟨reset_configured, reset_timely, ?_, ?_, ?_, ?_, ⟨_, rfl⟩⟩
  · constructor <;> decide
  · refine ⟨?_, ?_, by decide, ?_, by intro e; cases e <;> decide⟩
    · constructor <;> decide
    · constructor <;> decide
    · intro e h
      cases h
  · constructor <;> decide
  · constructor <;> decide

/-- `EachRegisterHasItsWriters`: a command that runs and is none of the writers. -/
theorem witness_writers : (∃ t, exec (.force 41) State.reset = .next t) ∧ ∀ v, Instr.force 41 ≠ .chEnable 41 v :=
  ⟨⟨_, exec_of_wf (by decide) _⟩, fun _ h => by cases h⟩

end Sys2Proof.Tests
end

section
/-! SUPPORT. The effects of the ports by what they can disturb, and a command from its pieces (R104 to R107). -/

namespace Sys2Proof.Machine

/-! ### The effects of the ports (R104), by what they can disturb -/

/-- `c` with the registers of `t` that neither the schedule nor the player nor the FIFO side reads. -/
def withUnits (c t : State) : State :=
  { c with
    env := t.env
    sweep := t.sweep
    length := t.length
    lenEnable := t.lenEnable
    tri := { t.tri with updateAt := c.tri.updateAt }
    noise := t.noise
    cache := t.cache }

/-- A length load writes the length counters only (R169). -/
theorem loadLength_eq (ch : Chan) (v : Byte) (s : State) :
    loadLength ch v s = { s with length := (loadLength ch v s).length } := by
  unfold loadLength
  split <;> rfl

theorem withUnits_pulseHigh (p : PulseIx) (v : Byte) (s : State) : withUnits s (pulseHigh p v s) = pulseHigh p v s := by
  rw [pulseHigh, loadLength_eq]; rfl

theorem withUnits_noiseLength (v : Byte) (s : State) : withUnits s (noiseLength v s) = noiseLength v s := by
  rw [noiseLength, loadLength_eq]; rfl

/-- `TRI_HI` without its delay (R142). -/
def triHighUnits (v : Byte) (s : State) : State :=
  let s1 := loadLength .tri v
    { s with tri := { s.tri with period := periodHigh v ++ s.tri.period.extractLsb' 0 8 } }
  { s1 with tri := { s1.tri with linearReload := true } }

theorem triHigh_eq (ts : Nat) (v : Byte) (s : State) : triHigh ts v s = armTriDelay ts (triHighUnits v s) := rfl

theorem withUnits_triHighUnits (v : Byte) (s : State) : withUnits s (triHighUnits v s) = triHighUnits v s := by
  rw [triHighUnits, loadLength_eq]; rfl

/-- `SEQ_CTRL` keeps what its three parts keep (R185). -/
theorem seqControl_keeps {P : State → Prop} {ts : Nat} {v : Byte} {s : State} (configured : P (seqConfigure v s))
    (ticked : ∀ s, P s → P (tick ts s)) (restarted : ∀ s, P s → P (seqRestart ts s)) : P (seqControl ts v s) := by
  refine andThen_keeps ?_ fun _ => restarted _
  split
  · exact ticked _ configured
  · exact configured

/-- `CH_ENABLE` keeps what its parts keep (R168). -/
theorem channelEnable_keeps {P : State → Prop} {ts : Nat} {v : Byte} {s : State} (h : P s)
    (channel : ∀ ch s, P s → P (enableChannel ch v s)) (arm : ∀ s, P s → P (armTriDelay ts s))
    (enable : ∀ s, P s → P (dmcEnableWrite (enableDmc v) ts s)) : P (channelEnable ts v s) := by
  have delay : ∀ s, P s → P (enableTriDelay ts v s) := fun s h => by
    unfold enableTriDelay
    split
    · exact h
    · exact arm s h
  exact enable _ (channel _ _ (delay _ (channel _ _ (channel _ _ (channel _ _ h)))))

/-- What every kind of effect at a timestamp keeps. -/
structure EffectClosed (ts : Nat) (P : State → Prop) : Prop where
  units : ∀ s t, P s → P (withUnits s t)
  arm : ∀ s, P s → P (armTriDelay ts s)
  enable : ∀ b s, P s → P (dmcEnableWrite b ts s)
  control : ∀ v s, P s → P (dmcControl v s)
  direct : ∀ v s, P s → P (dmcDirect ts v s)
  start : ∀ v s, P s → P (dmcStart v s)
  len : ∀ v s, P s → P (dmcLength v s)
  configure : ∀ v s, P s → P (seqConfigure v s)
  tick : ∀ s, P s → P (tick ts s)
  restart : ∀ s, P s → P (seqRestart ts s)

/-- Every port's effect is one of those kinds, or two in a row. -/
theorem EffectClosed.effect {P : State → Prop} {i : Instr} (E : EffectClosed i.ts P) {s : State} (h : P s) :
    P (portEffect i s) := by
  have units : ∀ t, withUnits s t = t → P t := fun t e => e ▸ E.units s t h
  cases i with
  | p0Hi ts v | p1Hi ts v => exact units _ (withUnits_pulseHigh _ _ s)
  | noiLen ts v => exact units _ (withUnits_noiseLength _ s)
  | triLo ts v => exact E.arm _ (units _ rfl)
  | triHi ts v => exact E.arm _ (units _ (withUnits_triHighUnits _ s))
  | dmcCtrl ts v => exact E.control _ s h
  | dmcLevel ts v => exact E.direct _ s h
  | dmcAddr ts v => exact E.start _ s h
  | dmcLen ts v => exact E.len _ s h
  | chEnable ts v => exact channelEnable_keeps h (fun ch s => E.units s (enableChannel ch _ s)) E.arm (E.enable _)
  | seqCtrl ts v => exact seqControl_keeps (E.configure _ s h) E.tick E.restart
  | _ => exact units _ rfl

/-! ### Commands from their pieces -/

/-- A property `P` of the state at work, from the command's opening to its end, and `Q` of what the command leaves. -/
theorem commandBody_keeps {P Q : State → Prop} {i : Instr} {s : State} (opened : P (arrive i.ts s))
    (effect : ∀ s, s.fault = none → P s → P (portEffect i s)) (synced : ∀ s, s.fault = none → P s → P (sync i.ts s))
    (stage : ∀ s, P s → P (stageCtrl (portStage i) s)) (status : ∀ s, P s → P (statusRead s))
    (enter : i = .eof i.ts → ∀ s, s.fault = none → P s → Q (enterWait i.ts s)) (done : ∀ s, P s → Q s) :
    Q (commandBody i s) := by
  cases i with
  | rdStatus ts => exact done _ (andThen_keeps opened fun _ => status _)
  | force ts => exact done _ (andThen_keeps opened (synced _))
  | eof ts =>
    have flushed := andThen_keeps opened (synced _)
    rcases andThen_cases (andThen (arrive ts s) (sync ts)) (enterWait ts) with ⟨hf, e⟩ | ⟨-, e⟩
    · exact (congrArg Q e).mpr (enter rfl _ hf flushed)
    · exact (congrArg Q e).mpr (done _ flushed)
  | _ => exact done _ (andThen_keeps (andThen_keeps (andThen_keeps opened (effect _)) (synced _)) fun _ => stage _)

end Sys2Proof.Machine
end

section
/-! SUPPORT. What a step keeps of the player, the stores and the cursors (R39 (b), R40): the canonical form, the player's ranges,
the rising tags. -/

namespace Sys2Proof.Machine

/-! ### The player, the stores and the cursors as one thing -/

/-- The two states agree on the player, the stores, the cursors and the Pending index; the timers, the units and the
rest of the FIFO side may differ. -/
structure SameStores (s t : State) : Prop where
  cfg : t.cfg = s.cfg
  dmc : t.dmc = s.dmc
  pendingSample : t.pendingSample = s.pendingSample
  writeCursor : t.writeCursor = s.writeCursor
  mem : t.mem = s.mem
  slots : t.slots = s.slots
  deltas : t.deltas = s.deltas
  readPos : t.readPos = s.readPos
  events : t.events = s.events

theorem checkTime_sameStores (ts : Nat) (s : State) : SameStores s (checkTime ts s) := by
  rcases checkTime_cases ts s with ⟨-, e⟩ | ⟨-, e⟩ <;> rw [e] <;> constructor <;> rfl

/-- A tick is a `Sync` of a state with the same stores. -/
theorem tick_eq_sync_sameStores (T : Nat) (s : State) : ∃ u, SameStores s u ∧ tick T s = sync T u := by
  unfold tick
  dsimp only
  split
  · exact ⟨recomputeTri (clockUnits s), by constructor <;> simp, rfl⟩
  · exact ⟨clockUnits s, by constructor <;> simp, rfl⟩

/-- What a step keeps of the player, the stores and the cursors, piece by piece. -/
structure StoreClosed (P : State → Prop) : Prop where
  same : ∀ s t, SameStores s t → P s → P t
  sync : ∀ T s, P s → P (sync T s)
  player : ∀ T s, s.dmc.nextCommit = some T → P s → P (dmcTick T s)
  enable : ∀ b ts s, P s → P (dmcEnableWrite b ts s)
  control : ∀ v s, P s → P (dmcControl v s)
  direct : ∀ ts v s, P s → P (dmcDirect ts v s)
  start : ∀ v s, P s → P (dmcStart v s)
  len : ∀ v s, P s → P (dmcLength v s)
  status : ∀ b s, P s → P (report (.status b) s)
  move : ∀ d s, P s → P (moveTimes d s)
  consumer : ∀ s, P s → P (consumerAdvance s)

theorem StoreClosed.tick {P : State → Prop} (C : StoreClosed P) (T : Nat) {s : State} (h : P s) : P (tick T s) := by
  obtain ⟨u, hu, e⟩ := tick_eq_sync_sameStores T s
  exact e ▸ C.sync T u (C.same s u hu h)

theorem StoreClosed.effectClosed {P : State → Prop} (C : StoreClosed P) (ts : Nat) : EffectClosed ts P where
  units s t := C.same s _ (by constructor <;> rfl)
  arm s := C.same s _ (by constructor <;> rfl)
  enable b := C.enable b ts
  control := C.control
  direct := C.direct ts
  start := C.start
  len := C.len
  configure v s := C.same s _ (by constructor <;> rfl)
  tick s := C.tick ts
  restart s := C.same s _ (by constructor <;> rfl)

theorem StoreClosed.pass {P : State → Prop} (C : StoreClosed P) (ts : Nat) {s : State} (h : P s) : P (passWait ts s) := by
  unfold passWait
  split
  · exact C.same (moveTimes (rebaseAmount ts) s) _ (by constructor <;> rfl) (C.move _ s h)
  · exact h

theorem StoreClosed.event {P : State → Prop} (C : StoreClosed P) {ts T : Nat} {who : Due} {s : State}
    (hn : nextDue ts s = some (T, who)) (h : P s) : P (runDue T who s) := by
  obtain ⟨-, hd, -⟩ := nextDue_some hn
  cases who with
  | seqTick => exact andThen_keeps (C.tick T h) fun _ => C.same _ _ (by constructor <;> rfl)
  | triExpiry => exact C.sync T _ (C.same s _ (by constructor <;> rfl) h)
  | dmcTick => exact C.player T s hd h

theorem StoreClosed.closed {P : State → Prop} (C : StoreClosed P) : Closed P where
  check ts s := C.same s _ (checkTime_sameStores ts s)
  event _ _ _ _ hn := C.event hn
  effect i _ := (C.effectClosed i.ts).effect
  sync := C.sync
  stage i s := C.same s _ (by constructor <;> rfl)
  status s h := C.status _ _ (C.same s (clearFrameFlag s) (by constructor <;> rfl) h)
  enter ts s h := C.pass ts (C.same s { s with eofWait := some ts } (by constructor <;> rfl) h)
  pass ts _ := C.pass ts
  consumer := C.consumer
  turns s _ := C.same s _ (by constructor <;> rfl)
  take s := C.same s _ (by constructor <;> rfl)

/-! ### The stores (R40, R63, R66) -/

theorem emit_deltas_wf {d : Int} {t : Nat} {s : State} (h : s.deltas.wf) : (emit d t s).deltas.wf :=
  deltaPut_wf _ _ _ h

/-- A player's tick writes the delta stream through `Emit` only (R208, R210). -/
theorem dmcTick_deltas_wf {T : Nat} {s : State} (h : s.deltas.wf) : (dmcTick T s).deltas.wf := by
  have bit : ∀ u : State, u.deltas.wf → (dmcPlayBit T u).deltas.wf := fun _ h => emit_deltas_wf h
  unfold dmcTick
  split
  · exact bit s h
  · split
    · exact bit (dmcFetch s) h
    · split
      · exact bit (dmcFetch (dmcRestart s)) h
      · exact h

/-- Changing the deltas and what `Canonical` does not read. -/
theorem Canonical.of_deltas {s t : State} (h : Canonical s) (hd : t.deltas.wf) (cfg : t.cfg = s.cfg)
    (mem : t.mem = s.mem) (slots : t.slots = s.slots) (writeCursor : t.writeCursor = s.writeCursor)
    (readPos : t.readPos = s.readPos) : Canonical t :=
  ⟨mem ▸ h.mem, slots ▸ h.slots, slots ▸ cfg ▸ h.slotsInside, hd, writeCursor ▸ cfg ▸ h.writeCursor,
    readPos ▸ cfg ▸ h.readPos⟩

theorem Canonical.of_same {s t : State} (h : Canonical s) (e : SameStores s t) : Canonical t :=
  h.of_deltas (e.deltas ▸ h.deltas) e.cfg e.mem e.slots e.writeCursor e.readPos

/-- The flush writes at a cursor and moves it modulo `NSLOTS` (R226, R227). -/
theorem Canonical.flush {s : State} (h : Canonical s) (hc : s.cfg.Ok) : Canonical (flush s) where
  mem := h.mem
  slots := slotWrite_wf _ _ _ h.slots
  slotsInside e he := by
    rcases mem_sparsePut he with rfl | he
    · exact h.writeCursor
    · exact h.slotsInside e he
  deltas := h.deltas
  writeCursor := Nat.mod_lt _ (Nat.lt_of_lt_of_le Nat.two_pos hc.nslots)
  readPos := h.readPos

theorem Canonical.sync {s : State} (h : Canonical s) (hc : s.cfg.Ok) (T : Nat) : Canonical (sync T s) := by
  rcases sync_cases T s with ⟨-, e⟩ | ⟨-, e⟩ | ⟨-, e⟩ <;> rw [e]
  · exact h.of_deltas h.deltas rfl rfl rfl rfl rfl
  · exact h.of_deltas h.deltas rfl rfl rfl rfl rfl
  · exact (h.flush hc).of_deltas h.deltas rfl rfl rfl rfl rfl

theorem Canonical.consumer {s : State} (h : Canonical s) (hc : s.cfg.Ok) : Canonical (consumerAdvance s) := by
  unfold consumerAdvance
  split
  · exact { h with readPos := Nat.mod_lt _ (Nat.lt_of_lt_of_le Nat.two_pos hc.nslots) }
  · exact h

/-- A write of the enable bit changes the player's own registers only (R205). -/
theorem dmcEnableWrite_eq (b : Bool) (ts : Nat) (s : State) :
    dmcEnableWrite b ts s = { s with dmc := (dmcEnableWrite b ts s).dmc } := by
  unfold dmcEnableWrite
  split
  · split <;> rfl
  · rfl

theorem canonical_storeClosed : StoreClosed fun s => s.cfg.Ok ∧ Canonical s where
  same _ _ e h := ⟨e.cfg ▸ h.1, h.2.of_same e⟩
  sync T s h := ⟨by rw [sync_cfg]; exact h.1, h.2.sync h.1 T⟩
  player T s _ h := ⟨by rw [dmcTick_cfg]; exact h.1,
    h.2.of_deltas (dmcTick_deltas_wf h.2.deltas) (by simp) (by simp) (by simp) (by simp) (by simp)⟩
  enable b ts s h := by
    rw [dmcEnableWrite_eq]
    exact ⟨h.1, h.2.of_deltas h.2.deltas rfl rfl rfl rfl rfl⟩
  control _ _ h := ⟨h.1, h.2.of_deltas h.2.deltas rfl rfl rfl rfl rfl⟩
  direct _ _ _ h := ⟨h.1, h.2.of_deltas (emit_deltas_wf h.2.deltas) rfl rfl rfl rfl rfl⟩
  start _ _ h := ⟨h.1, h.2.of_deltas h.2.deltas rfl rfl rfl rfl rfl⟩
  len _ _ h := ⟨h.1, h.2.of_deltas h.2.deltas rfl rfl rfl rfl rfl⟩
  status _ _ h := ⟨h.1, h.2.of_deltas h.2.deltas rfl rfl rfl rfl rfl⟩
  move _ _ h := ⟨h.1, h.2.of_deltas h.2.deltas rfl rfl rfl rfl rfl⟩
  consumer s h := ⟨by unfold consumerAdvance; split <;> exact h.1, h.2.consumer h.1⟩

/-- Settles O53: the stores' form and the cursors' bounds are kept by every piece of a step, through `StoreClosed`. -/
theorem stepKeepsTheStoresCanonical : Obligations.StepKeepsTheStoresCanonical :=
  fun _ _ hc h hs => (canonical_storeClosed.closed.step ⟨hc, h⟩ hs).2

/-! ### The player's ranges (R30, R40, R213) -/

theorem PlayerBounded.of_eq {s t : State} (h : PlayerBounded s) (cfg : t.cfg = s.cfg) (dmc : t.dmc = s.dmc) :
    PlayerBounded t :=
  ⟨dmc ▸ h.bits, dmc ▸ h.bytes, dmc ▸ h.cursor, dmc ▸ h.parked, dmc ▸ cfg ▸ h.level⟩

/-- The level moves by 2 inside 0 to 127 (R209). -/
theorem bitLevel_le {b : Bool} {level : Byte} (h : level.toNat ≤ 127) : (bitLevel b level).toNat ≤ 127 := by
  unfold bitLevel
  split
  · split
    · rw [BitVec.toNat_add_of_lt] <;> simp <;> omega
    · exact h
  · split
    · rw [BitVec.toNat_sub_of_le (by simpa [BitVec.le_def])]; simp; omega
    · exact h

/-- `NextCursor` stays in the upper half (R207). -/
theorem nextCursor_high (c : Word16) : (nextCursor c).getLsbD 15 = true := by
  simp [nextCursor]

/-- A running player's bit keeps the ranges; only a running one may be given a next tick (R208, R211). -/
theorem PlayerBounded.playBit {s : State} (h : PlayerBounded s) (running : s.dmc.active = true) (T : Nat) :
    PlayerBounded (dmcPlayBit T s) where
  bits := Nat.le_trans (Nat.sub_le _ _) h.bits
  bytes := h.bytes
  cursor := h.cursor
  parked hp := absurd (running.symm.trans hp) (by decide)
  level hm := bitLevel_le (h.level hm)

theorem PlayerBounded.fetch {s : State} (h : PlayerBounded s) : PlayerBounded (dmcFetch s) where
  bits := Nat.le_refl 8
  bytes := Nat.le_trans (Nat.sub_le _ _) h.bytes
  cursor _ := nextCursor_high _
  parked := h.parked
  level := h.level

/-- `Restart` starts in the upper half under the bounds R7 puts on `DMC_BASE`, with at most 4081 bytes (R206). -/
theorem PlayerBounded.restart {s : State} (h : PlayerBounded s) (hc : s.cfg.Ok) : PlayerBounded (dmcRestart s) where
  bits := h.bits
  bytes := by
    have := s.dmc.len.isLt
    show (s.dmc.len.toNat <<< 4) + 1 ≤ 4081
    omega
  cursor _ := by
    have hs := s.dmc.start.isLt
    have hl := hc.baseLow
    have hh := hc.baseHigh
    show (BitVec.ofNat 16 (s.cfg.dmcBase + (s.dmc.start.toNat <<< 6))).getLsbD 15 = true
    rw [BitVec.getLsbD_ofNat, Nat.testBit_eq_decide_div_mod_eq]
    simp
    omega
  parked := h.parked
  level := h.level

theorem PlayerBounded.tick {T : Nat} {s : State} (h : PlayerBounded s) (hc : s.cfg.Ok)
    (due : s.dmc.nextCommit = some T) : PlayerBounded (dmcTick T s) := by
  have running : s.dmc.active = true := by
    by_contra hn
    rw [h.parked (by simpa using hn)] at due
    cases due
  unfold dmcTick
  split
  · exact h.playBit running T
  · split
    · exact h.fetch.playBit running T
    · split
      · exact (h.restart hc).fetch.playBit running T
      · exact { h with parked := fun _ => rfl }

theorem PlayerBounded.enable {s : State} (h : PlayerBounded s) (hc : s.cfg.Ok) (b : Bool) (ts : Nat) :
    PlayerBounded (dmcEnableWrite b ts s) := by
  unfold dmcEnableWrite
  split
  · split
    · exact { h.restart hc with parked := fun hp => Bool.noConfusion hp }
    · exact h
  · exact { h with
      bits := Nat.zero_le _
      bytes := Nat.zero_le _
      cursor := fun hp => absurd hp (Nat.lt_irrefl 0)
      parked := fun _ => rfl }

/-- A direct load is masked to the level's range (R202). -/
theorem PlayerBounded.direct {s : State} (h : PlayerBounded s) (ts : Nat) (v : Byte) :
    PlayerBounded (dmcDirect ts v s) := by
  refine { h with level := fun (hm : s.cfg.dmcDirectMask = 0x7F) => ?_ }
  show (v &&& s.cfg.dmcDirectMask).toNat ≤ 127
  rw [hm, BitVec.toNat_and]
  exact Nat.and_le_right

theorem PlayerBounded.move {s : State} (h : PlayerBounded s) (d : Nat) : PlayerBounded (moveTimes d s) :=
  { h with parked := fun hp => congrArg (Option.map (· - d)) (h.parked hp) }

theorem playerBounded_storeClosed : StoreClosed fun s => s.cfg.Ok ∧ PlayerBounded s where
  same _ _ e h := ⟨e.cfg ▸ h.1, h.2.of_eq e.cfg e.dmc⟩
  sync T s h := ⟨by rw [sync_cfg]; exact h.1, h.2.of_eq (sync_cfg T s) (sync_dmc T s)⟩
  player T s due h := ⟨by rw [dmcTick_cfg]; exact h.1, h.2.tick h.1 due⟩
  enable b ts s h := ⟨by rw [dmcEnableWrite_eq]; exact h.1, h.2.enable h.1 b ts⟩
  control _ _ h := ⟨h.1, { h.2 with }⟩
  direct ts v _ h := ⟨h.1, h.2.direct ts v⟩
  start _ _ h := ⟨h.1, { h.2 with }⟩
  len _ _ h := ⟨h.1, { h.2 with }⟩
  status _ _ h := ⟨h.1, h.2.of_eq rfl rfl⟩
  move d _ h := ⟨h.1, h.2.move d⟩
  consumer s h := by
    unfold consumerAdvance
    split
    · exact ⟨h.1, h.2.of_eq rfl rfl⟩
    · exact h

/-- Settles O55: a player has a next tick only while it runs, so its ticks keep the ranges. -/
theorem stepKeepsThePlayerBounded : Obligations.StepKeepsThePlayerBounded :=
  fun _ _ hc h hs => (playerBounded_storeClosed.closed.step ⟨hc, h⟩ hs).2

/-! ### The tags of the slot writes (R39 (b), R234 (b)) -/

theorem slotTags_append (a b : List Event) : slotTags (a ++ b) = slotTags a ++ slotTags b := by
  induction a with
  | nil => rfl
  | cons e rest ih => cases e <;> simp [slotTags, ih]

/-- The tags depend on the slot writes reported and the Pending index alone. -/
theorem TagsRising.of_events {s t : State} (h : TagsRising s) (pre : List Event) (none : slotTags pre = [])
    (events : t.events = s.events ++ pre) (pendingSample : t.pendingSample = s.pendingSample) : TagsRising t := by
  have tags : slotTags t.events = slotTags s.events := by rw [events, slotTags_append, none, List.append_nil]
  exact ⟨tags ▸ h.rising, tags ▸ pendingSample ▸ h.ahead⟩

theorem TagsRising.of_same {s t : State} (h : TagsRising s) (events : t.events = s.events)
    (pendingSample : t.pendingSample = s.pendingSample) : TagsRising t :=
  h.of_events [] rfl (by rw [events, List.append_nil]) pendingSample

/-- The flush's tag is the old index, which lies after all earlier ones and before the new one. -/
theorem TagsRising.flush_rebuild {s : State} (h : TagsRising s) {i : Nat} (later : s.pendingSample < i) :
    TagsRising (rebuild i (flush s)) := by
  have tags : slotTags (rebuild i (flush s)).events = slotTags s.events ++ [s.pendingSample] :=
    slotTags_append s.events [.slot s.writeCursor (pendingSlot s)]
  refine ⟨?_, fun t ht => ?_⟩
  · rw [tags, List.pairwise_append]
    exact ⟨h.rising, List.pairwise_singleton _ _, fun a ha b hb => List.mem_singleton.mp hb ▸ h.ahead a ha⟩
  · rw [tags, List.mem_append, List.mem_singleton] at ht
    rcases ht with ht | rfl
    · exact Nat.lt_trans (h.ahead t ht) later
    · exact later

theorem TagsRising.sync {s : State} (h : TagsRising s) (T : Nat) : TagsRising (sync T s) := by
  rcases sync_cases T s with ⟨-, e⟩ | ⟨same, e⟩ | ⟨later, e⟩ <;> rw [e]
  · exact h.of_same rfl rfl
  · exact h.of_same rfl same
  · exact h.flush_rebuild later

/-- A player's tick reports no slot write (R208, R210). -/
theorem TagsRising.player {s : State} (h : TagsRising s) (T : Nat) : TagsRising (dmcTick T s) := by
  have bit : ∀ u, TagsRising u → TagsRising (dmcPlayBit T u) := fun u h => h.of_events [_] rfl rfl rfl
  have fetch : ∀ u, TagsRising u → TagsRising (dmcFetch u) := fun u h => h.of_events [_] rfl rfl rfl
  unfold dmcTick
  split
  · exact bit _ h
  · split
    · exact bit _ (fetch _ h)
    · split
      · exact bit _ (fetch _ (h.of_same rfl rfl))
      · exact h.of_events [_] rfl rfl rfl

theorem tagsRising_storeClosed : StoreClosed TagsRising where
  same _ _ e h := h.of_same e.events e.pendingSample
  sync T _ h := h.sync T
  player T _ _ h := h.player T
  enable b ts s h := by
    rw [dmcEnableWrite_eq]
    exact h.of_same rfl rfl
  control _ _ h := h.of_same rfl rfl
  direct _ _ _ h := h.of_events [_] rfl rfl rfl
  start _ _ h := h.of_same rfl rfl
  len _ _ h := h.of_same rfl rfl
  status _ _ h := h.of_events [_] rfl rfl rfl
  move _ _ h := h.of_same rfl rfl
  consumer s h := by
    unfold consumerAdvance
    split
    · exact h.of_same rfl rfl
    · exact h

/-- Settles O56: only `Sync` reports a slot write, and it tags it with the index it then moves on from. -/
theorem stepKeepsTheSlotTagsRising : Obligations.StepKeepsTheSlotTagsRising :=
  fun _ _ h hs => tagsRising_storeClosed.closed.step h hs

end Sys2Proof.Machine
end

section
/-! SUPPORT. What a step keeps of the schedule (R39 (a), R40, R264): the catch-up runs the events in the order of their times. -/

namespace Sys2Proof.Machine

/-! ### The catch-up under the schedule (R103, R39 (a)) -/

/-- No event is scheduled before `L`, and no staged index lies after it. -/
structure Reached (L : Nat) (s : State) : Prop where
  due : ∀ who T, dueAt s who = some T → L ≤ T
  pending : s.pendingSample ≤ sampleIndex L s
  staged : s.dmc.stagedSample ≤ sampleIndex L s

/-- The next event's time is reached before it runs. -/
theorem Reached.next {L ts T : Nat} {who : Due} {s : State} (h : Reached L s) (hn : nextDue ts s = some (T, who)) :
    Reached T s := by
  obtain ⟨-, hd, least⟩ := nextDue_some hn
  have mono := sampleIndex_mono s (h.due who T hd)
  exact ⟨least, Nat.le_trans h.pending mono, Nat.le_trans h.staged mono⟩

theorem triExpire_fault_of_le {T : Nat} {s : State} (h : s.pendingSample ≤ sampleIndex T s) :
    (triExpire T s).fault = s.fault := sync_fault_of_le h

theorem triExpire_pendingSample_of_le {T : Nat} {s : State} (h : s.pendingSample ≤ sampleIndex T s) :
    (triExpire T s).pendingSample = sampleIndex T s := sync_pendingSample_of_le h

/-- A player's tick stages at its own time or, where it completes, not at all (R208, R212). -/
theorem dmcTick_stagedSample (T : Nat) (s : State) :
    (dmcTick T s).dmc.stagedSample = sampleIndex T s ∨ (dmcTick T s).dmc.stagedSample = s.dmc.stagedSample := by
  unfold dmcTick
  split
  · exact .inl rfl
  · split
    · exact .inl rfl
    · split
      · exact .inl rfl
      · exact .inr rfl

/-- An event whose time is reached raises nothing. -/
theorem runDue_fault {T : Nat} {who : Due} {s : State} (h : Reached T s) : (runDue T who s).fault = s.fault := by
  cases who with
  | seqTick => exact andThen_keeps (P := fun t => t.fault = s.fault) (tick_fault_of_le h.pending) fun _ hf => hf
  | triExpiry => exact triExpire_fault_of_le h.pending
  | dmcTick => exact dmcTick_fault T s

/-- No event is scheduled before the one that just ran, and no staged index lies after it. -/
theorem runDue_reached {T : Nat} {who : Due} {s : State} (h : Reached T s) : Reached T (runDue T who s) := by
  have index : sampleIndex T (runDue T who s) = sampleIndex T s := sampleIndex_congr (by simp) (by simp) T
  cases who with
  | seqTick =>
    have ticked : Reached T (tick T s) := by
      refine ⟨fun who T' hd => h.due who T' ?_, ?_, ?_⟩
      · cases who <;> simpa [dueAt, tick_seq, clockUnits_seq, tick_tri, linearClocked_updateAt] using hd
      · rw [tick_pendingSample_of_le h.pending, sampleIndex_congr (tick_cfg T s) (tick_offset T s)]
      · rw [tick_dmc, sampleIndex_congr (tick_cfg T s) (tick_offset T s)]
        exact h.staged
    refine andThen_keeps ticked fun _ r => { r with due := fun who T' hd => ?_ }
    cases who with
    | seqTick => cases hd; exact Nat.le_add_right _ _
    | triExpiry => exact r.due .triExpiry T' hd
    | dmcTick => exact r.due .dmcTick T' hd
  | triExpiry =>
    refine ⟨fun who T' hd => ?_, ?_, ?_⟩
    · cases who with
      | seqTick => exact h.due .seqTick T' (by simpa [dueAt, runDue] using hd)
      | triExpiry => simp [dueAt, runDue] at hd
      | dmcTick => exact h.due .dmcTick T' (by simpa [dueAt, runDue] using hd)
    · rw [index]; exact Nat.le_of_eq (triExpire_pendingSample_of_le h.pending)
    · rw [index]; simpa [runDue] using h.staged
  | dmcTick =>
    refine ⟨fun who T' hd => ?_, ?_, ?_⟩
    · cases who with
      | seqTick => exact h.due .seqTick T' (by simpa [dueAt, runDue] using hd)
      | triExpiry => exact h.due .triExpiry T' (by simpa [dueAt, runDue] using hd)
      | dmcTick =>
        change (dmcTick T s).dmc.nextCommit = some T' at hd
        rcases dmcTick_nextCommit T s with e | e
        · rw [e] at hd; cases hd
        · rw [e] at hd; cases hd; exact Nat.le_add_right _ _
    · rw [index]; simpa [runDue] using h.pending
    · rw [index]
      rcases dmcTick_stagedSample T s with e | e
      · exact Nat.le_of_eq e
      · exact Nat.le_trans (Nat.le_of_eq e) h.staged

/-! ### The stored values of the tables (R31, R201) -/

theorem Configured.of_eq {s t : State} (h : Configured s) (cfg : t.cfg = s.cfg) (stepP2 : t.seq.stepP2 = s.seq.stepP2)
    (mode : t.seq.mode = s.seq.mode) (period : t.dmc.period = s.dmc.period) (rate : t.dmc.rate = s.dmc.rate) :
    Configured t :=
  ⟨cfg ▸ h.cfg, by rw [stepP2, cfg, mode]; exact h.stepP2, by rw [period, cfg, rate]; exact h.period⟩

theorem Configured.tick {s : State} (h : Configured s) (T : Nat) : Configured (tick T s) :=
  h.of_eq (by simp) (by rw [tick_seq, clockUnits_seq]) (by rw [tick_seq, clockUnits_seq]) (by simp) (by simp)

theorem Configured.runDue {s : State} (h : Configured s) (T : Nat) (who : Due) : Configured (runDue T who s) := by
  cases who with
  | seqTick => exact andThen_keeps (h.tick T) fun _ h => h.of_eq rfl rfl rfl rfl rfl
  | triExpiry =>
    show Configured (triExpire T s)
    exact h.of_eq (by simp) (by simp) (by simp) (by simp) (by simp)
  | dmcTick =>
    show Configured (dmcTick T s)
    exact h.of_eq (by simp) (by simp) (by simp) (dmcTick_player T s).period (dmcTick_player T s).rate

/-! ### A command at work (R100, R103) -/

/-- A command of timestamp `ts` at work after its opening: nothing is due, nothing staged lies after `ts`, no fault. -/
structure Current (ts : Nat) (s : State) : Prop where
  configured : Configured s
  now : s.lastTs = ts
  noneDue : NoneDue ts s
  pending : s.pendingSample ≤ sampleIndex ts s
  staged : s.dmc.stagedSample ≤ sampleIndex ts s
  wait : ∀ t, s.eofWait = some t → t = ts
  noFault : s.fault = none

theorem Current.timely {ts : Nat} {s : State} (h : Current ts s) : Timely s where
  noneDue := h.now.symm ▸ h.noneDue
  pending := h.now.symm ▸ h.pending
  staged := h.now.symm ▸ h.staged
  wait := h.now.symm ▸ h.wait
  sane a b := by simp [h.noFault]

/-- The catch-up's invariant: its last event's time, at or before `ts`, is reached. -/
structure CatchingUp (ts : Nat) (s : State) : Prop where
  configured : Configured s
  reached : ∃ L ≤ ts, Reached L s
  now : s.lastTs = ts
  noWait : s.eofWait = none
  noFault : s.fault = none

theorem CatchingUp.event {ts T : Nat} {who : Due} {s : State} (hn : nextDue ts s = some (T, who))
    (h : CatchingUp ts s) : CatchingUp ts (runDue T who s) := by
  obtain ⟨L, -, r⟩ := h.reached
  have rT := r.next hn
  exact ⟨h.configured.runDue T who, ⟨T, (nextDue_some hn).1, runDue_reached rT⟩, by rw [runDue_lastTs]; exact h.now,
    by rw [runDue_eofWait]; exact h.noWait, by rw [runDue_fault rT]; exact h.noFault⟩

/-- A catch-up from a state whose last time is reached raises nothing and leaves nothing due. -/
theorem catchUp_current {ts L : Nat} {s : State} (hc : Configured s) (hL : L ≤ ts) (reached : Reached L s)
    (now : s.lastTs = ts) (noWait : s.eofWait = none) (noFault : s.fault = none) : Current ts (catchUp ts s) := by
  have start : CatchingUp ts s := ⟨hc, ⟨L, hL, reached⟩, now, noWait, noFault⟩
  have stop : CatchingUp ts (catchUp ts s) := catchUp_keeps (fun _ _ _ => CatchingUp.event) start
  obtain ⟨hc', ⟨L', hL', r⟩, now', noWait', noFault'⟩ := stop
  have mono := sampleIndex_mono (catchUp ts s) hL'
  exact ⟨hc', now', catchUp_done hc.moving noFault', Nat.le_trans r.pending mono, Nat.le_trans r.staged mono,
    by simp [noWait'], noFault'⟩

/-- The opening of a command in a timely state raises the timing violation or leaves the state current (R100 to R103). -/
theorem arrive_timely (ts : Nat) {s : State} (hc : Configured s) (ht : Timely s) (noWait : s.eofWait = none)
    (noFault : s.fault = none) :
    (arrive ts s = raise (.timingViolation ts s.lastTs) s) ∨ Current ts (arrive ts s) := by
  have opened : arrive ts s = andThen (checkTime ts s) (catchUp ts) := by rw [arrive, andThen_ok noFault]
  rw [opened]
  rcases checkTime_cases ts s with ⟨-, e⟩ | ⟨le, e⟩
  · exact .inl (by rw [e]; exact andThen_fault (Option.some_ne_none _) _)
  · rw [e, andThen_ok (s := { s with lastTs := ts }) noFault]
    refine .inr (catchUp_current (s := { s with lastTs := ts }) (hc.of_eq rfl rfl rfl rfl rfl) le
      ⟨fun who T hd => ?_, ht.pending, ht.staged⟩ rfl noWait noFault)
    cases who with
    | seqTick => cases hd; exact Nat.le_of_lt ht.noneDue.tick
    | triExpiry => exact Nat.le_of_lt (ht.noneDue.tri T hd)
    | dmcTick => exact Nat.le_of_lt (ht.noneDue.dmc T hd)

/-! ### What a current state keeps -/

/-- The two states agree on the timers, what the timers' lengths come from, the staged indices and the bridge. -/
structure SameTiming (s t : State) : Prop where
  cfg : t.cfg = s.cfg
  stepP2 : t.seq.stepP2 = s.seq.stepP2
  mode : t.seq.mode = s.seq.mode
  nextTick : t.seq.nextTick = s.seq.nextTick
  updateAt : t.tri.updateAt = s.tri.updateAt
  rate : t.dmc.rate = s.dmc.rate
  period : t.dmc.period = s.dmc.period
  nextCommit : t.dmc.nextCommit = s.dmc.nextCommit
  stagedSample : t.dmc.stagedSample = s.dmc.stagedSample
  pendingSample : t.pendingSample = s.pendingSample
  offset : t.offset = s.offset
  lastTs : t.lastTs = s.lastTs
  eofWait : t.eofWait = s.eofWait
  fault : t.fault = s.fault

theorem Current.of_same {ts : Nat} {s t : State} (h : Current ts s) (e : SameTiming s t) : Current ts t where
  configured := h.configured.of_eq e.cfg e.stepP2 e.mode e.period e.rate
  now := e.lastTs ▸ h.now
  noneDue := ⟨e.nextTick ▸ h.noneDue.tick, e.updateAt ▸ h.noneDue.tri, e.nextCommit ▸ h.noneDue.dmc⟩
  pending := by rw [e.pendingSample, sampleIndex_congr e.cfg e.offset]; exact h.pending
  staged := by rw [e.stagedSample, sampleIndex_congr e.cfg e.offset]; exact h.staged
  wait := e.eofWait ▸ h.wait
  noFault := e.fault ▸ h.noFault

theorem Current.sync {ts : Nat} {s : State} (h : Current ts s) : Current ts (sync ts s) := by
  have index : sampleIndex ts (Machine.sync ts s) = sampleIndex ts s :=
    sampleIndex_congr (sync_cfg ts s) (sync_offset ts s) ts
  refine ⟨h.configured.of_eq (by simp) (by simp) (by simp) (by simp) (by simp), by simpa using h.now,
    ⟨by simpa using h.noneDue.tick, by simpa using h.noneDue.tri, by simpa using h.noneDue.dmc⟩, ?_, ?_,
    by simpa using h.wait, ?_⟩
  · rw [index, sync_pendingSample_of_le h.pending]
  · rw [index, sync_dmc]; exact h.staged
  · rw [sync_fault_of_le h.pending]; exact h.noFault

theorem Current.tick {ts : Nat} {s : State} (h : Current ts s) : Current ts (tick ts s) := by
  have index : sampleIndex ts (Machine.tick ts s) = sampleIndex ts s :=
    sampleIndex_congr (tick_cfg ts s) (tick_offset ts s) ts
  refine ⟨h.configured.tick ts, by simpa using h.now, ⟨?_, ?_, by simpa using h.noneDue.dmc⟩, ?_, ?_,
    by simpa using h.wait, ?_⟩
  · rw [tick_seq, clockUnits_seq]; exact h.noneDue.tick
  · rw [tick_tri]; exact h.noneDue.tri
  · rw [index, tick_pendingSample_of_le h.pending]
  · rw [index, tick_dmc]; exact h.staged
  · rw [tick_fault_of_le h.pending]; exact h.noFault

/-- The player's own writes: the next tick comes one period after the write or stays as armed (R205). -/
theorem Current.enable {ts : Nat} {s : State} (h : Current ts s) (b : Bool) : Current ts (dmcEnableWrite b ts s) := by
  have period := h.configured.moving.period
  unfold dmcEnableWrite
  split
  · split
    · have armed : ∀ t, (dmcActivate ts s).dmc.nextCommit = some t → ts < t := by
        intro t ht
        change (match s.dmc.nextCommit with | none => some (ts + s.dmc.period) | some t => some t) = some t at ht
        split at ht
        · cases ht; omega
        · rename_i t' e
          cases ht; exact h.noneDue.dmc t e
      exact { h with
        configured := h.configured.of_eq rfl rfl rfl rfl rfl
        noneDue := { h.noneDue with dmc := armed } }
    · exact h
  · exact { h with
      configured := h.configured.of_eq rfl rfl rfl rfl rfl
      noneDue := { h.noneDue with dmc := fun _ ht => by cases ht } }

/-- Resetting the divider schedules the next tick at least one cycle on (R185, R181). -/
theorem Current.restart {ts : Nat} {s : State} (h : Current ts s) : Current ts (seqRestart ts s) := by
  have length : 1 ≤ stepLength { s.seq with half := false } := stepLength_pos h.configured.moving.step
  exact { h with
    configured := h.configured.of_eq rfl rfl rfl rfl rfl
    noneDue := { h.noneDue with tick := Nat.lt_add_of_pos_right length } }

/-- `SEQ_CTRL` sets the step length of the mode it sets (R185). -/
theorem Current.configure {ts : Nat} {s : State} (h : Current ts s) (v : Byte) : Current ts (seqConfigure v s) :=
  { h with
    configured := ⟨h.configured.cfg, rfl, h.configured.period⟩
    noneDue := { h.noneDue with } }

/-- `DMC_CTRL` sets the period of the rate it sets (R201). -/
theorem Current.control {ts : Nat} {s : State} (h : Current ts s) (v : Byte) : Current ts (dmcControl v s) :=
  { h with
    configured := ⟨h.configured.cfg, h.configured.stepP2, rfl⟩
    noneDue := { h.noneDue with } }

/-- The triangle's delay ends after the write (R143). -/
theorem Current.arm {ts : Nat} {s : State} (h : Current ts s) : Current ts (armTriDelay ts s) :=
  { h with
    configured := h.configured.of_eq rfl rfl rfl rfl rfl
    noneDue := { h.noneDue with
      tri := fun t ht => by cases ht; exact Nat.lt_add_of_pos_right (by decide) } }

/-- A direct load stages at the command's own index (R202, R212). -/
theorem Current.direct {ts : Nat} {s : State} (h : Current ts s) (v : Byte) : Current ts (dmcDirect ts v s) :=
  { h with
    configured := h.configured.of_eq rfl rfl rfl rfl rfl
    noneDue := { h.noneDue with }
    staged := Nat.le_refl _ }

theorem current_effectClosed (ts : Nat) : EffectClosed ts (Current ts) where
  units _ _ h := h.of_same (by constructor <;> rfl)
  arm _ h := h.arm
  enable b _ h := h.enable b
  control v _ h := h.control v
  direct v _ h := h.direct v
  start _ _ h := h.of_same (by constructor <;> rfl)
  len _ _ h := h.of_same (by constructor <;> rfl)
  configure v _ h := h.configure v
  tick _ h := h.tick
  restart _ h := h.restart

/-! ### The bridge (R251, R252) -/

theorem rebaseAmount_le (ts : Nat) : rebaseAmount ts ≤ ts := by
  rw [rebaseAmount_eq]
  exact Nat.div_mul_le_self _ _

/-- Moving the times leaves every sample index where it was (R253). -/
theorem sampleIndex_moveTimes {d t : Nat} (h : d ≤ t) (s : State) :
    sampleIndex (t - d) (moveTimes d s) = sampleIndex t s := by
  have split : t * s.cfg.scale = (t - d) * s.cfg.scale + d * s.cfg.scale := by rw [← Nat.add_mul, Nat.sub_add_cancel h]
  show ((t - d) * s.cfg.scale + (s.offset + d * s.cfg.scale)) >>> Config.shift = _
  rw [sampleIndex, split]
  congr 1
  omega

theorem moved_timer {d last : Nat} {timer : Option Nat} (hd : d ≤ last) (h : ∀ t, timer = some t → last < t) :
    ∀ t, timer.map (· - d) = some t → last - d < t := by
  intro t ht
  obtain ⟨t', e, rfl⟩ := Option.map_eq_some_iff.mp ht
  exact Nat.sub_lt_sub_right hd (h t' e)

/-- A rebase moves the last timestamp and the schedule down together (R252). -/
theorem Timely.rebase {s : State} (h : Timely s) : Timely (rebase s.lastTs s) := by
  have hd := rebaseAmount_le s.lastTs
  have index : sampleIndex (s.lastTs - rebaseAmount s.lastTs) (Machine.rebase s.lastTs s) = sampleIndex s.lastTs s :=
    sampleIndex_moveTimes hd s
  exact {
    noneDue := ⟨Nat.sub_lt_sub_right hd h.noneDue.tick, moved_timer hd h.noneDue.tri, moved_timer hd h.noneDue.dmc⟩
    pending := Nat.le_trans h.pending (Nat.le_of_eq index.symm)
    staged := Nat.le_trans h.staged (Nat.le_of_eq index.symm)
    wait := fun _ ht => by cases ht
    sane := h.sane }

theorem Timely.pass {s : State} (h : Timely s) : Timely (passWait s.lastTs s) := by
  unfold passWait
  split
  · exact h.rebase
  · exact h

theorem Configured.move {s : State} (h : Configured s) (d : Nat) : Configured (moveTimes d s) :=
  h.of_eq rfl rfl rfl rfl rfl

theorem Configured.pass {s : State} (h : Configured s) (ts : Nat) : Configured (passWait ts s) := by
  unfold passWait
  split
  · exact (h.move (rebaseAmount ts)).of_eq rfl rfl rfl rfl rfl
  · exact h

/-! ### A step -/

theorem Current.enter {ts : Nat} {s : State} (h : Current ts s) :
    Configured (enterWait ts s) ∧ Timely (enterWait ts s) := by
  have held : Current ts { s with eofWait := some ts } := { h with
    configured := h.configured.of_eq rfl rfl rfl rfl rfl
    noneDue := { h.noneDue with }
    wait := fun t ht => by cases ht; rfl }
  obtain rfl := h.now
  exact ⟨held.configured.pass _, held.timely.pass⟩

/-- A fault raised by the opening ends the command there (R260). -/
theorem commandBody_of_fault {i : Instr} {s : State} (h : (arrive i.ts s).fault ≠ none) :
    commandBody i s = arrive i.ts s := by
  cases i with
  | rdStatus ts | force ts | eof ts =>
    simp only [Instr.ts] at h
    simp only [commandBody, andThen_fault h, Instr.ts]
  | _ => simp only [commandBody, andThen_fault h]

theorem Timely.commandBody (i : Instr) {s : State} (hc : Configured s) (ht : Timely s) (noWait : s.eofWait = none)
    (noFault : s.fault = none) : Configured (commandBody i s) ∧ Timely (commandBody i s) := by
  rcases arrive_timely i.ts hc ht noWait noFault with e | opened
  · rw [commandBody_of_fault (by rw [e]; exact Option.some_ne_none _), e]
    exact ⟨hc.of_eq rfl rfl rfl rfl rfl, { ht with
      noneDue := { ht.noneDue with }
      sane := fun _ _ hf => by cases hf }⟩
  · exact commandBody_keeps (Q := fun t => Configured t ∧ Timely t) opened
      (fun _ _ => (current_effectClosed i.ts).effect) (fun _ _ h => h.sync) (fun _ h => h.of_same (by constructor <;> rfl))
      (fun _ h => h.of_same (by constructor <;> rfl)) (fun _ _ _ h => h.enter) (fun _ h => ⟨h.configured, h.timely⟩)

/-- Changing the consumer's position, the stream and the agents' schedule. -/
theorem Timely.of_inputs {s : State} (h : Timely s) (readPos : Nat) (cmds : List CommandWord) (turns : List Turn) :
    Timely { s with readPos := readPos, cmds := cmds, turns := turns } :=
  { h with noneDue := { h.noneDue with } }

/-- Settles O52: the catch-up runs the events in the order of their times, so each `Sync` and each staged delta comes
at an index at or after the last one, and every event's next time lies after the command. -/
theorem stepKeepsTheScheduleAhead : Obligations.StepKeepsTheScheduleAhead := by
  intro s t hc ht hs
  have inputs : ∀ r c u, Configured { s with readPos := r, cmds := c, turns := u } := fun _ _ _ =>
    hc.of_eq rfl rfl rfl rfl rfl
  rcases step_cases hs with ⟨rest, -, rfl⟩ | ⟨-, -, ts, held, rfl⟩ | ⟨-, -, -, -, rfl⟩ |
    ⟨-, noFault, noWait, w, i, -, -, he⟩
  · unfold consumerAdvance
    split
    · exact ⟨inputs _ _ _, ht.of_inputs _ _ _⟩
    · exact ⟨inputs _ _ _, ht.of_inputs _ _ _⟩
  · obtain rfl := ht.wait ts held
    exact ⟨(inputs _ _ _).pass _, (ht.of_inputs s.readPos s.cmds s.turns.tail).pass⟩
  · exact ⟨inputs _ _ _, ht.of_inputs _ _ _⟩
  · rw [(exec_next he).2]
    exact Timely.commandBody i (inputs s.readPos s.cmds.tail s.turns.tail) (ht.of_inputs _ _ _) noWait noFault

end Sys2Proof.Machine
end

section
/-! SUPPORT. Which command writes which register (R12, R27 to R34). -/

namespace Sys2Proof.Machine

/-! ### The registers only a port's effect writes -/

/-- The configuration, the pinned memory, the consumer's position and the two streams (R12, R42). -/
def inputRegs (s : State) := (s.cfg, s.mem, s.readPos, s.cmds, s.turns)

/-- The sequencer's mode, step length and inhibit (R31). -/
def modeRegs (q : Sequencer) := (q.mode, q.stepP2, q.irqInhibit)

/-- The player's registers that `DMC_CTRL` sets (R201). -/
def controlRegs (d : Dmc) := (d.rate, d.period, d.loop, d.irqEnable)

/-- The two states agree on the registers that nothing but a port's effect writes. -/
structure SameSetup (s t : State) : Prop where
  inputs : inputRegs t = inputRegs s
  lenEnable : t.lenEnable = s.lenEnable
  mode : modeRegs t.seq = modeRegs s.seq
  control : t.tri.control = s.tri.control
  period : t.tri.period = s.tri.period
  noise : t.noise = s.noise
  player : SamePlayer s.dmc t.dmc

theorem SamePlayer.refl (d : Dmc) : SamePlayer d d := ⟨rfl, rfl, rfl, rfl, rfl, rfl⟩

theorem SamePlayer.trans {a b c : Dmc} (h : SamePlayer a b) (k : SamePlayer b c) : SamePlayer a c :=
  ⟨k.loop.trans h.loop, k.irqEnable.trans h.irqEnable, k.rate.trans h.rate, k.period.trans h.period,
    k.start.trans h.start, k.len.trans h.len⟩

theorem SamePlayer.controlRegs {a b : Dmc} (h : SamePlayer a b) : controlRegs b = controlRegs a := by
  simp only [Machine.controlRegs, h.rate, h.period, h.loop, h.irqEnable]

theorem SameSetup.refl (s : State) : SameSetup s s := ⟨rfl, rfl, rfl, rfl, rfl, rfl, .refl _⟩

theorem SameSetup.trans {s t u : State} (h : SameSetup s t) (k : SameSetup t u) : SameSetup s u where
  inputs := k.inputs.trans h.inputs
  lenEnable := k.lenEnable.trans h.lenEnable
  mode := k.mode.trans h.mode
  control := k.control.trans h.control
  period := k.period.trans h.period
  noise := k.noise.trans h.noise
  player := h.player.trans k.player

theorem checkTime_sameSetup (ts : Nat) (s : State) : SameSetup s (checkTime ts s) := by
  rcases checkTime_cases ts s with ⟨-, e⟩ | ⟨-, e⟩ <;> rw [e]
  · exact { SameSetup.refl s with }
  · exact { SameSetup.refl s with }

theorem sync_sameSetup (T : Nat) (s : State) : SameSetup s (sync T s) := by
  constructor <;> simp [inputRegs, modeRegs, SamePlayer.refl]

theorem tick_sameSetup (T : Nat) (s : State) : SameSetup s (tick T s) := by
  constructor <;> simp [inputRegs, modeRegs, tick_seq, clockUnits_seq, tick_tri_kept, SamePlayer.refl]

theorem runDue_sameSetup (T : Nat) (who : Due) (s : State) : SameSetup s (runDue T who s) := by
  cases who with
  | seqTick => exact andThen_keeps (tick_sameSetup T s) fun _ h => h.trans { SameSetup.refl (tick T s) with }
  | triExpiry =>
    show SameSetup s (triExpire T s)
    constructor <;> simp [inputRegs, modeRegs, SamePlayer.refl]
  | dmcTick =>
    show SameSetup s (dmcTick T s)
    constructor <;> simp [inputRegs, modeRegs, dmcTick_player]

theorem arrive_sameSetup (ts : Nat) (s : State) : SameSetup s (arrive ts s) :=
  arrive_keeps (SameSetup.refl s) (fun _ => checkTime_sameSetup ts s) fun T who u _ h =>
    h.trans (runDue_sameSetup T who u)

theorem stageCtrl_sameSetup (bits : Byte) (s : State) : SameSetup s (stageCtrl bits s) := { SameSetup.refl s with }

theorem statusRead_sameSetup (s : State) : SameSetup s (statusRead s) := { SameSetup.refl s with }

theorem moveTimes_sameSetup (d : Nat) (wait : Option Nat) (s : State) :
    SameSetup s { moveTimes d s with eofWait := wait } :=
  { SameSetup.refl s with player := ⟨rfl, rfl, rfl, rfl, rfl, rfl⟩ }

theorem enterWait_sameSetup (ts : Nat) (s : State) : SameSetup s (enterWait ts s) := by
  unfold enterWait passWait
  split
  · exact { moveTimes_sameSetup (rebaseAmount ts) none { s with eofWait := some ts } with }
  · exact { SameSetup.refl s with }

/-- A command leaves what its port's effect leaves of what the rest of a command agrees on. -/
theorem commandBody_setup {α : Type} (read : State → α) (same : ∀ s t, SameSetup s t → read t = read s) {i : Instr}
    (effect : ∀ s, read (portEffect i s) = read s) (s : State) : read (commandBody i s) = read s :=
  commandBody_keeps (P := fun t => read t = read s) (Q := fun t => read t = read s) (same _ _ (arrive_sameSetup _ s))
    (fun c _ h => (effect c).trans h) (fun c _ h => (same c _ (sync_sameSetup _ c)).trans h)
    (fun c h => (same c _ (stageCtrl_sameSetup _ c)).trans h) (fun c h => (same c _ (statusRead_sameSetup c)).trans h)
    (fun _ c _ h => (same c _ (enterWait_sameSetup _ c)).trans h) (fun _ h => h)

/-! ### The effects that only a branch decides -/

theorem loadLength_sameSetup (ch : Chan) (v : Byte) (s : State) : SameSetup s (loadLength ch v s) := by
  rw [loadLength_eq]
  exact { SameSetup.refl s with }

theorem pulseHigh_sameSetup (p : PulseIx) (v : Byte) (s : State) : SameSetup s (pulseHigh p v s) :=
  { loadLength_sameSetup p.chan v
      { s with cache := s.cache.set p.chan (setField (s.cache.get p.chan) 12 (periodHigh v)) } with }

theorem noiseLength_sameSetup (v : Byte) (s : State) : SameSetup s (noiseLength v s) :=
  { loadLength_sameSetup .noise v s with }

/-- `TRI_HI` writes the period (R142). -/
theorem triHigh_sameSetup (ts : Nat) (v : Byte) (s : State) :
    SameSetup { s with tri := { s.tri with period := periodHigh v ++ s.tri.period.extractLsb' 0 8 } }
      (triHigh ts v s) :=
  { loadLength_sameSetup .tri v
      { s with tri := { s.tri with period := periodHigh v ++ s.tri.period.extractLsb' 0 8 } } with }

/-- `SEQ_CTRL` writes the sequencer (R185). -/
theorem seqControl_sameSetup (ts : Nat) (v : Byte) (s : State) :
    SameSetup { s with seq := (seqControl ts v s).seq } (seqControl ts v s) :=
  seqControl_keeps (P := fun t => SameSetup { s with seq := t.seq } t) { SameSetup.refl s with mode := rfl }
    (fun u h => { h.trans (tick_sameSetup ts u) with mode := rfl })
    (fun _ h => { h with mode := rfl })

theorem dmcEnableWrite_player (b : Bool) (ts : Nat) (s : State) : SamePlayer s.dmc (dmcEnableWrite b ts s).dmc := by
  unfold dmcEnableWrite
  split
  · split <;> exact ⟨rfl, rfl, rfl, rfl, rfl, rfl⟩
  · exact ⟨rfl, rfl, rfl, rfl, rfl, rfl⟩

/-- `CH_ENABLE` writes the length enables (R168). -/
theorem channelEnable_sameSetup (ts : Nat) (v : Byte) (s : State) :
    SameSetup { s with lenEnable := (channelEnable ts v s).lenEnable } (channelEnable ts v s) := by
  refine channelEnable_keeps (P := fun t => SameSetup { s with lenEnable := t.lenEnable } t)
    { SameSetup.refl s with lenEnable := rfl } (fun _ _ h => { h with lenEnable := rfl }) (fun _ h => { h with })
    fun u h => ?_
  have player := h.player.trans (dmcEnableWrite_player (enableDmc v) ts u)
  rw [dmcEnableWrite_eq] at player ⊢
  exact { h with player := player }

/-! ### The writers of each register -/

/-- The registers of the bridge that outlive a command (R34, R35). -/
def bridgeRegs (s : State) := (s.offset, s.eofWait)

/-- No port's effect touches the configuration, the inputs or the bridge (R12, R34). -/
theorem inputs_effectClosed (ts : Nat) (s : State) :
    EffectClosed ts fun t => inputRegs t = inputRegs s ∧ bridgeRegs t = bridgeRegs s where
  units _ _ h := h
  arm _ h := h
  enable b _ h := by rw [dmcEnableWrite_eq]; exact h
  control _ _ h := h
  direct _ _ h := h
  start _ _ h := h
  len _ _ h := h
  configure _ _ h := h
  tick _ h := by simpa [inputRegs, bridgeRegs] using h
  restart _ h := h

theorem portEffect_inputs (i : Instr) (s : State) : inputRegs (portEffect i s) = inputRegs s :=
  ((inputs_effectClosed i.ts s).effect ⟨rfl, rfl⟩).1

theorem portEffect_bridge (i : Instr) (s : State) : bridgeRegs (portEffect i s) = bridgeRegs s :=
  ((inputs_effectClosed i.ts s).effect ⟨rfl, rfl⟩).2

theorem portEffect_lenEnable {i : Instr} (h : ∀ v, i ≠ .chEnable i.ts v) (s : State) :
    (portEffect i s).lenEnable = s.lenEnable := by
  cases i with
  | chEnable ts v => exact absurd rfl (h v)
  | p0Hi ts v | p1Hi ts v => exact (pulseHigh_sameSetup _ _ s).lenEnable
  | noiLen ts v => exact (noiseLength_sameSetup _ s).lenEnable
  | triHi ts v => exact (triHigh_sameSetup _ _ s).lenEnable
  | seqCtrl ts v => exact (seqControl_sameSetup _ _ s).lenEnable
  | _ => rfl

theorem portEffect_mode {i : Instr} (h : ∀ v, i ≠ .seqCtrl i.ts v) (s : State) :
    modeRegs (portEffect i s).seq = modeRegs s.seq := by
  cases i with
  | seqCtrl ts v => exact absurd rfl (h v)
  | p0Hi ts v | p1Hi ts v => exact (pulseHigh_sameSetup _ _ s).mode
  | noiLen ts v => exact (noiseLength_sameSetup _ s).mode
  | triHi ts v => exact (triHigh_sameSetup _ _ s).mode
  | chEnable ts v => exact (channelEnable_sameSetup _ _ s).mode
  | _ => rfl

theorem portEffect_triControl {i : Instr} (h : ∀ v, i ≠ .triCtrl i.ts v) (s : State) :
    (portEffect i s).tri.control = s.tri.control := by
  cases i with
  | triCtrl ts v => exact absurd rfl (h v)
  | p0Hi ts v | p1Hi ts v => exact (pulseHigh_sameSetup _ _ s).control
  | noiLen ts v => exact (noiseLength_sameSetup _ s).control
  | triHi ts v => exact (triHigh_sameSetup _ _ s).control
  | chEnable ts v => exact (channelEnable_sameSetup _ _ s).control
  | seqCtrl ts v => exact (seqControl_sameSetup _ _ s).control
  | _ => rfl

theorem portEffect_triPeriod {i : Instr} (h : ∀ v, i ≠ .triLo i.ts v ∧ i ≠ .triHi i.ts v) (s : State) :
    (portEffect i s).tri.period = s.tri.period := by
  cases i with
  | triLo ts v => exact absurd rfl (h v).1
  | triHi ts v => exact absurd rfl (h v).2
  | p0Hi ts v | p1Hi ts v => exact (pulseHigh_sameSetup _ _ s).period
  | noiLen ts v => exact (noiseLength_sameSetup _ s).period
  | chEnable ts v => exact (channelEnable_sameSetup _ _ s).period
  | seqCtrl ts v => exact (seqControl_sameSetup _ _ s).period
  | _ => rfl

theorem portEffect_noise {i : Instr} (h : ∀ v, i ≠ .noiMode i.ts v) (s : State) :
    (portEffect i s).noise = s.noise := by
  cases i with
  | noiMode ts v => exact absurd rfl (h v)
  | p0Hi ts v | p1Hi ts v => exact (pulseHigh_sameSetup _ _ s).noise
  | noiLen ts v => exact (noiseLength_sameSetup _ s).noise
  | triHi ts v => exact (triHigh_sameSetup _ _ s).noise
  | chEnable ts v => exact (channelEnable_sameSetup _ _ s).noise
  | seqCtrl ts v => exact (seqControl_sameSetup _ _ s).noise
  | _ => rfl

/-- The ports that write one of the player's set-up registers. -/
inductive SetsPlayer : Instr → Prop
  | control (ts v : Nat) : SetsPlayer (.dmcCtrl ts v)
  | start (ts v : Nat) : SetsPlayer (.dmcAddr ts v)
  | len (ts v : Nat) : SetsPlayer (.dmcLen ts v)

/-- The other ports leave all of them. -/
theorem portEffect_player {i : Instr} (h : ¬ SetsPlayer i) (s : State) : SamePlayer s.dmc (portEffect i s).dmc := by
  cases i with
  | dmcCtrl ts v => exact absurd (.control ts v) h
  | dmcAddr ts v => exact absurd (.start ts v) h
  | dmcLen ts v => exact absurd (.len ts v) h
  | p0Hi ts v | p1Hi ts v => exact (pulseHigh_sameSetup _ _ s).player
  | noiLen ts v => exact (noiseLength_sameSetup _ s).player
  | triHi ts v => exact (triHigh_sameSetup _ _ s).player
  | chEnable ts v => exact (channelEnable_sameSetup _ _ s).player
  | seqCtrl ts v => exact (seqControl_sameSetup _ _ s).player
  | _ => exact ⟨rfl, rfl, rfl, rfl, rfl, rfl⟩

theorem portEffect_dmcControl {i : Instr} (h : ∀ v, i ≠ .dmcCtrl i.ts v) (s : State) :
    controlRegs (portEffect i s).dmc = controlRegs s.dmc := by
  by_cases hp : SetsPlayer i
  · cases hp with
    | control ts v => exact absurd rfl (h v)
    | start ts v | len ts v => rfl
  · exact (portEffect_player hp s).controlRegs

theorem portEffect_dmcStart {i : Instr} (h : ∀ v, i ≠ .dmcAddr i.ts v) (s : State) :
    (portEffect i s).dmc.start = s.dmc.start := by
  by_cases hp : SetsPlayer i
  · cases hp with
    | start ts v => exact absurd rfl (h v)
    | control ts v | len ts v => rfl
  · exact (portEffect_player hp s).start

theorem portEffect_dmcLen {i : Instr} (h : ∀ v, i ≠ .dmcLen i.ts v) (s : State) :
    (portEffect i s).dmc.len = s.dmc.len := by
  by_cases hp : SetsPlayer i
  · cases hp with
    | len ts v => exact absurd rfl (h v)
    | control ts v | start ts v => rfl
  · exact (portEffect_player hp s).len

/-- Only `EOF` moves `offset` or touches the hold (R34, R252). -/
theorem commandBody_bridge {i : Instr} (h : i ≠ .eof i.ts) (s : State) :
    bridgeRegs (commandBody i s) = bridgeRegs s := by
  have check : bridgeRegs (checkTime i.ts s) = bridgeRegs s := by
    rcases checkTime_cases i.ts s with ⟨-, e⟩ | ⟨-, e⟩ <;> rw [e] <;> rfl
  have event : ∀ T who t, bridgeRegs (runDue T who t) = bridgeRegs t := by simp [bridgeRegs]
  have synced : ∀ t, bridgeRegs (sync i.ts t) = bridgeRegs t := by simp [bridgeRegs]
  have opened : bridgeRegs (arrive i.ts s) = bridgeRegs s :=
    arrive_keeps (P := fun t => bridgeRegs t = bridgeRegs s) rfl (fun _ => check)
      fun T who t _ ht => (event T who t).trans ht
  exact commandBody_keeps (P := fun t => bridgeRegs t = bridgeRegs s) (Q := fun t => bridgeRegs t = bridgeRegs s)
    opened (fun t _ ht => (portEffect_bridge i t).trans ht) (fun t _ ht => (synced t).trans ht) (fun _ ht => ht)
    (fun _ ht => ht) (fun e => absurd e h) (fun _ ht => ht)

/-- Settles O59: outside the port's effect no piece of a command writes any of these registers, and each effect writes
its own. -/
theorem eachRegisterHasItsWriters : Obligations.EachRegisterHasItsWriters := by
  intro i s t ht
  rw [(exec_next ht).2]
  have inputs := commandBody_setup inputRegs (fun _ _ h => h.inputs) (portEffect_inputs i) s
  simp only [inputRegs, Prod.mk.injEq] at inputs
  obtain ⟨cfg, mem, readPos, cmds, turns⟩ := inputs
  refine ⟨cfg, mem, readPos, cmds, turns, fun h => ?_, fun h => ?_, fun h => ?_, fun h => ?_, fun h => ?_, fun h => ?_,
    fun h => ?_, fun h => ?_, fun h => ?_⟩
  · exact commandBody_setup State.lenEnable (fun _ _ h => h.lenEnable) (portEffect_lenEnable h) s
  · simpa [modeRegs] using commandBody_setup (modeRegs ·.seq) (fun _ _ h => h.mode) (portEffect_mode h) s
  · exact commandBody_setup (·.tri.control) (fun _ _ h => h.control) (portEffect_triControl h) s
  · exact commandBody_setup (·.tri.period) (fun _ _ h => h.period) (portEffect_triPeriod h) s
  · exact commandBody_setup State.noise (fun _ _ h => h.noise) (portEffect_noise h) s
  · simpa [controlRegs] using
      commandBody_setup (controlRegs ·.dmc) (fun _ _ h => h.player.controlRegs) (portEffect_dmcControl h) s
  · exact commandBody_setup (·.dmc.start) (fun _ _ h => h.player.start) (portEffect_dmcStart h) s
  · exact commandBody_setup (·.dmc.len) (fun _ _ h => h.player.len) (portEffect_dmcLen h) s
  · simpa [bridgeRegs] using commandBody_bridge h s

end Sys2Proof.Machine
end

section
/-! SUPPORT. The reset state (R41): its values, and that it meets every invariant. -/

namespace Sys2Proof.Machine

/-- T0 is a configuration R7 allows (R8, R10, R11). -/
theorem t0_ok : Config.t0.Ok := by constructor <;> decide

theorem wordsOk_zero : WordsOk ⟨0, 0, 0, 0⟩ := by constructor <;> decide

theorem resetOf_configured {c : Cfg} (h : c.Ok) : Configured (State.resetOf c) := ⟨h, rfl, rfl⟩

/-- The first natural tick comes half the doubled step length after time 0. -/
theorem resetOf_timely {c : Cfg} (h : c.Ok) : Timely (State.resetOf c) where
  noneDue := by
    have first : 0 < c.stepP2Four >>> 1 := by
      have := h.stepFour
      omega
    exact ⟨first, fun _ ht => (nomatch ht), fun _ ht => (nomatch ht)⟩
  pending := Nat.zero_le _
  staged := Nat.zero_le _
  wait _ ht := nomatch ht
  sane _ _ hf := nomatch hf

theorem resetOf_canonical {c : Cfg} (h : c.Ok) : Canonical (State.resetOf c) where
  mem := ⟨sparseRising_nil, fun _ he => nomatch he⟩
  slots := sparseRising_nil
  slotsInside _ he := nomatch he
  deltas := ⟨sparseRising_nil, fun _ he => nomatch he⟩
  writeCursor := Nat.lt_of_lt_of_le Nat.two_pos h.nslots
  readPos := Nat.lt_of_lt_of_le Nat.two_pos h.nslots

theorem resetOf_formatted (c : Cfg) : Formatted (State.resetOf c) where
  cache := wordsOk_zero
  pending := wordsOk_zero
  pendingCtrl := show ctrlOk 0 by decide
  slots _ he := nomatch he
  volumes e := by cases e <;> rfl

theorem resetOf_playerBounded (c : Cfg) : PlayerBounded (State.resetOf c) where
  bits := Nat.zero_le _
  bytes := Nat.zero_le _
  cursor _ := show (0x8000 : Word16).getLsbD 15 = true by decide
  parked _ := rfl
  level _ := Nat.zero_le _

theorem resetOf_tagsRising (c : Cfg) : TagsRising (State.resetOf c) := ⟨List.Pairwise.nil, fun _ ht => nomatch ht⟩

/-- Settles O58: at reset nothing is scheduled but the first tick, and every store and word is empty or 0. -/
theorem resetMeetsEveryInvariant : Obligations.ResetMeetsEveryInvariant :=
  ⟨t0_ok, rfl, fun c h => ⟨resetOf_configured h, resetOf_timely h, resetOf_canonical h, resetOf_formatted c,
    resetOf_playerBounded c, resetOf_tagsRising c⟩⟩

/-- Settles O57: each value is the one R41's table gives, read off the reset state. -/
theorem resetHoldsTheSpecsValues : Obligations.ResetHoldsTheSpecsValues := by
  intro c s
  have firstTick : s.seq.nextTick = c.stepP2Four / 2 := Nat.shiftRight_eq_div_pow _ 1
  refine ⟨fun e => ?_, fun p => ?_, fun ch => ?_, ?_⟩
  · cases e <;> exact ⟨rfl, rfl, rfl, rfl, rfl, rfl⟩
  · cases p <;> exact ⟨rfl, rfl, rfl, rfl, rfl, rfl⟩
  · cases ch <;> exact ⟨rfl, rfl, rfl, rfl⟩
  · simp only [firstTick]
    simp [s, State.resetOf, rateEntry, slotAt, deltaAt, sparseGet]

end Sys2Proof.Machine
end

section
/-! SUPPORT. What one step answers on each turn (R70, R100, R251, R260, R261). -/

namespace Sys2Proof.Machine

/-! ### The turn taken and the work found -/

theorem takeTurn_consumer {s : State} {rest : List Turn} (h : s.turns = .consumer :: rest) :
    takeTurn s = (.consumer, { s with turns := rest }) := by
  simp [takeTurn, h]

/-- A schedule that does not begin with the consumer gives the engine the turn, the empty one among them (assumption
log 5). -/
theorem takeTurn_engine {s : State} (h : s.turns.head? ≠ some .consumer) :
    takeTurn s = (.engine, { s with turns := s.turns.tail }) := by
  unfold takeTurn
  cases ht : s.turns with
  | nil =>
    have same : { s with turns := [] } = s := by rw [← ht]
    simp [same]
  | cons t rest =>
    cases t with
    | engine => rfl
    | consumer => simp [ht] at h

theorem engineWork_faulted {s : State} {f : Fault} (h : s.fault = some f) : engineWork s = .faulted f := by
  simp [engineWork, h]

theorem engineWork_held {s : State} {ts : Nat} (hf : s.fault = none) (he : s.eofWait = some ts) :
    engineWork s = .held ts := by
  simp [engineWork, hf, he]

theorem engineWork_idle {s : State} (h : runOver s) : engineWork s = .idle := by
  obtain ⟨hc, he, hf⟩ := h
  simp [engineWork, hf, he, hc]

theorem engineWork_command {s : State} {w : CommandWord} {rest : List CommandWord} (hf : s.fault = none)
    (he : s.eofWait = none) (hc : s.cmds = w :: rest) : engineWork s = .command w := by
  simp [engineWork, hf, he, hc]

/-! ### The operations of the other turns, written out -/

theorem consumerAdvance_eq (s : State) : consumerAdvance s =
    if s.readPos = s.writeCursor then s else { s with readPos := (s.readPos + 1) % s.cfg.nslots } :=
  ite_not ..

theorem passWait_hold {s : State} (h : s.cfg.leadSlots < lead s) (ts : Nat) : passWait ts s = s :=
  if_neg (Nat.not_le.mpr h)

theorem passWait_proceed {s : State} (h : lead s ≤ s.cfg.leadSlots) (ts : Nat) : passWait ts s = rebase ts s :=
  if_pos h

/-! ### One step -/

theorem step_consumer {s : State} {rest : List Turn} (h : s.turns = .consumer :: rest) :
    step s = .next (consumerAdvance { s with turns := rest }) := by
  simp [step, takeTurn_consumer h]

section Engine
variable {s : State} (turn : s.turns.head? ≠ some .consumer)
include turn

theorem step_faulted {f : Fault} (h : s.fault = some f) : step s = .fault f := by
  have work : engineWork { s with turns := s.turns.tail } = .faulted f := engineWork_faulted h
  simp [step, takeTurn_engine turn, work]

theorem step_held {ts : Nat} (hf : s.fault = none) (he : s.eofWait = some ts) :
    step s = .next (passWait ts { s with turns := s.turns.tail }) := by
  have work : engineWork { s with turns := s.turns.tail } = .held ts := engineWork_held hf he
  simp [step, takeTurn_engine turn, work]

theorem step_idle (h : runOver s) : step s = .next { s with turns := s.turns.tail } := by
  have work : engineWork { s with turns := s.turns.tail } = .idle := engineWork_idle h
  simp [step, takeTurn_engine turn, work]

theorem step_invalidWord {w : CommandWord} {rest : List CommandWord} {why : Reject} (hf : s.fault = none)
    (he : s.eofWait = none) (hc : s.cmds = w :: rest) (hd : decode w = .error why) :
    step s = .refused (.invalidWord w why) := by
  have work : engineWork { s with turns := s.turns.tail } = .command w := engineWork_command hf he hc
  simp [step, takeTurn_engine turn, work, hd]

end Engine

/-- Settles O6: whose turn it is and what the engine finds there fix the answer; a hold stays or passes by the lead. -/
theorem stepOfTheOtherTurns : Obligations.StepOfTheOtherTurns := by
  intro s
  refine ⟨fun rest ht => ?_, fun turn => ⟨?_, ?_, ?_, ?_, ?_⟩⟩
  · rw [step_consumer ht, consumerAdvance_eq]
  · exact fun f hf => step_faulted turn hf
  · intro ts hf he hlead
    rw [step_held turn hf he, passWait_hold (s := { s with turns := s.turns.tail }) hlead]
  · intro ts hf he hlead
    rw [step_held turn hf he, passWait_proceed (s := { s with turns := s.turns.tail }) hlead, rebase, rebaseAmount_eq]
    rfl
  · exact step_idle turn
  · exact fun w rest why hf he hc hd => step_invalidWord turn hf he hc hd

end Sys2Proof.Machine
end

section
/-! SUPPORT. The decoder and the encoder against each other and against the opcode table (R81, R82, R97). -/

namespace Sys2Proof

/-! ### Packed words decode (R81) -/

/-- A packed `WRITE` decodes by its port. -/
theorem decode_packWord_port {reg ts v : Nat} (port : reg < 24) (operands : (timestampOk ts && valueOk v) = true) :
    decode (packWord 0 reg v ts) = decodePort reg ts v := by
  simp only [timestampOk, valueOk, Bool.and_eq_true, decide_eq_true_eq] at operands
  rw [decode_pack 0 reg v ts (by decide) (by omega) operands.2 operands.1, if_pos rfl]

/-- A packed command without operands decodes by its `op`. -/
theorem decode_packWord_bare {op ts : Nat} (bare : op ≠ 0) (fits : op < 4) (operand : timestampOk ts = true) :
    decode (packWord op 0 0 ts) =
      if op = 1 then .ok (.rdStatus ts) else if op = 2 then .ok (.force ts) else .ok (.eof ts) := by
  rw [decode_pack op 0 0 ts fits (by decide) (by decide) (of_decide_eq_true operand), if_neg bare]
  simp

/-- Settles O1: a `WRITE` is packed under a port that decodes back to it, the other three under their own `op`. -/
theorem decodeOfEncodeGivesTheCommand : Obligations.DecodeOfEncodeGivesTheCommand := by
  intro i h
  cases i with
  | rdStatus ts | force ts | eof ts => exact decode_packWord_bare (by decide) (by decide) h
  | _ => exact decode_packWord_port (by decide) h

/-! ### What a word decodes to (R81, R82) -/

/-- The port map gives the command of that port with those operands. -/
theorem decodePort_ok {reg ts v : Nat} {i : Instr} (h : decodePort reg ts v = .ok i) :
    encode i = packWord 0 reg v ts ∧ i.wf = (timestampOk ts && valueOk v) := by
  unfold decodePort at h
  split at h <;> cases h <;> exact ⟨rfl, rfl⟩

/-- A word that decodes has its zero field 0. -/
theorem decode_zeroField {w : CommandWord} {i : Instr} (h : decode w = .ok i) : w.extractLsb' 56 6 = 0 := by
  by_contra zero
  have nonzero : (w.extractLsb' 56 6).toNat ≠ 0 := fun e => zero (BitVec.eq_of_toNat_eq e)
  rw [decode, if_pos nonzero] at h
  cases h

/-- What packed fields decode to is spelled by the same fields. -/
theorem decode_packWord_ok {op reg v ts : Nat} {i : Instr} (hop : op < 4) (hreg : reg < 65536) (hv : v < 256)
    (hts : ts < 2 ^ 32) (h : decode (packWord op reg v ts) = .ok i) :
    encode i = packWord op reg v ts ∧ i.wf = true := by
  have tsOk : timestampOk ts = true := decide_eq_true hts
  have vOk : valueOk v = true := decide_eq_true hv
  rw [decode_pack op reg v ts hop hreg hv hts] at h
  split at h
  · rename_i write
    obtain ⟨packed, wf⟩ := decodePort_ok h
    exact ⟨write ▸ packed, by rw [wf, tsOk, vOk]; rfl⟩
  · split at h
    · cases h
    · obtain ⟨rfl, rfl⟩ : reg = 0 ∧ v = 0 := by omega
      obtain rfl | rfl | rfl : op = 1 ∨ op = 2 ∨ op = 3 := by omega
      all_goals cases h; exact ⟨rfl, tsOk⟩

/-- Settles O2: a word with zero field 0 is the pack of its fields, which spell what it decodes to. -/
theorem encodeOfDecodeGivesTheWord : Obligations.EncodeOfDecodeGivesTheWord := by
  intro w i h
  have packed := word_eq w (decode_zeroField h)
  rw [packed] at h ⊢
  exact decode_packWord_ok (BitVec.isLt _) (BitVec.isLt _) (BitVec.isLt _) (BitVec.isLt _) h

/-! ### The rows of the opcode table (R81) -/

/-- Every command's word matches the command's own row. -/
theorem encode_matches_row (i : Instr) : encode i &&& i.row.mask = i.row.pattern := by
  cases i with
  | rdStatus ts | force ts | eof ts => exact pack_matches_bare _ _ _ (by decide)
  | _ => exact pack_matches_write _ _ _ _ (by decide)

/-- A word that decodes matches its command's row. -/
theorem decode_matches_row {w : CommandWord} {i : Instr} (h : decode w = .ok i) : w &&& i.row.mask = i.row.pattern := by
  obtain ⟨packed, -⟩ := encodeOfDecodeGivesTheWord w i h
  exact packed ▸ encode_matches_row i

/-- A word that matches a row decodes: a `WRITE` row fixes a port of R82, another row `op` and the fields that are 0. -/
theorem decode_of_matches {w : CommandWord} {r : OpcodeRow} (hr : r ∈ opcodeRows) (h : w &&& r.mask = r.pattern) :
    ∃ i, decode w = .ok i := by
  rcases row_kind hr with ⟨n, reg, port, rfl⟩ | ⟨n, op, fits, bare, rfl⟩
  · obtain ⟨zero, write, hreg⟩ := (mask_write w reg port).mp h
    simpa [decode, zero, write, hreg] using decodePort_total port
  · obtain ⟨zero, hop, hreg, value⟩ := (mask_bare w op fits).mp h
    obtain rfl | rfl | rfl : op = 1 ∨ op = 2 ∨ op = 3 := by omega
    all_goals simp [decode, zero, hop, hreg, value]

/-- Two rows that one word matches are one row. -/
theorem row_unique {w : CommandWord} {r r' : OpcodeRow} (hr : r ∈ opcodeRows) (hr' : r' ∈ opcodeRows)
    (h : w &&& r.mask = r.pattern) (h' : w &&& r'.mask = r'.pattern) : r = r' := by
  refine rows_disjoint r hr r' hr' ?_
  rw [← h, ← h', BitVec.and_assoc, BitVec.and_assoc, BitVec.and_comm r.mask]

/-- Settles O3: what decodes matches its command's row, what matches a row decodes, and the rows do not overlap. -/
theorem decoderAcceptsExactlyTheTableRows : Obligations.DecoderAcceptsExactlyTheTableRows := by
  refine fun w => ⟨⟨?_, fun ⟨_, hr, h⟩ => decode_of_matches hr h⟩, ?_⟩
  · exact fun ⟨i, h⟩ => ⟨i.row, row_mem i, decode_matches_row h⟩
  · exact fun i hi r hr h => row_unique hr (row_mem i) h (decode_matches_row hi)

/-- Settles O4: each word's fields evaluate to the command, or the rejection, R81 and R82 give it. -/
theorem decoderReadsTheSpecsWords : Obligations.DecoderReadsTheSpecsWords := by
  unfold Obligations.DecoderReadsTheSpecsWords
  decide

end Sys2Proof
end

section
/-! SUPPORT. What a step keeps of the word formats (R98, R40) and of the volume nibbles (R122). -/

namespace Sys2Proof.Machine

/-! ### A word's format by its zero bits (R98) -/

/-- The bits R98 keeps zero in a channel's word. -/
def ZeroBit : Chan → Nat → Prop
  | .pulse0, i => i = 15
  | .pulse1, i => i = 15
  | .tri, i => i < 4 ∨ i = 15
  | .noise, i => 13 ≤ i ∧ i < 16

/-- A channel's word in its format. -/
def WordOk (ch : Chan) (w : Word16) : Prop := ∀ i, ZeroBit ch i → w.getLsbD i = false

/-- None of a channel's zero bits lies in the field of `n` bits at `lo`. -/
def FreeField (ch : Chan) (lo n : Nat) : Prop := ∀ i, ZeroBit ch i → i < lo ∨ lo + n ≤ i

theorem ZeroBit.lt {ch : Chan} {i : Nat} (h : ZeroBit ch i) : i < 16 := by
  cases ch <;> simp only [ZeroBit] at h <;> omega

theorem field_eq_zero_iff (w : Word16) (lo n : Nat) : field w lo n = 0 ↔ ∀ i < n, w.getLsbD (lo + i) = false := by
  constructor
  · intro h i hi
    have bit : (field w lo n).getLsbD i = false := h ▸ BitVec.getLsbD_zero
    rwa [getLsbD_field, decide_eq_true hi, Bool.true_and] at bit
  · intro h
    apply BitVec.eq_of_getLsbD_eq
    intro i hi
    simp [getLsbD_field, h i hi]

theorem wordOk_tri_iff (w : Word16) : WordOk .tri w ↔ triWordOk w := by
  rw [triWordOk, field_eq_zero_iff]
  simp [WordOk, ZeroBit, or_imp, forall_and]

theorem wordOk_noise_iff (w : Word16) : WordOk .noise w ↔ noiseWordOk w := by
  rw [noiseWordOk, field_eq_zero_iff]
  constructor
  · exact fun h i hi => h (13 + i) ⟨by omega, by omega⟩
  · rintro h i ⟨low, high⟩
    have bit := h (i - 13) (by omega)
    rwa [Nat.add_sub_cancel' low] at bit

/-- Four words are in their formats when each channel's is. -/
theorem wordsOk_iff (w : PerChan Word16) : WordsOk w ↔ ∀ ch, WordOk ch (w.get ch) := by
  constructor
  · rintro ⟨pulse0, pulse1, tri, noise⟩ ch
    cases ch with
    | pulse0 => rintro i rfl; exact pulse0
    | pulse1 => rintro i rfl; exact pulse1
    | tri => exact (wordOk_tri_iff _).mpr tri
    | noise => exact (wordOk_noise_iff _).mpr noise
  · intro h
    exact ⟨h .pulse0 15 rfl, h .pulse1 15 rfl, (wordOk_tri_iff _).mp (h .tri), (wordOk_noise_iff _).mp (h .noise)⟩

theorem WordsOk.set {w : PerChan Word16} (h : WordsOk w) {ch : Chan} {a : Word16} (ok : WordOk ch a) :
    WordsOk (w.set ch a) := by
  rw [wordsOk_iff] at h ⊢
  intro c
  by_cases same : c = ch
  · subst same
    rwa [PerChan.get_set_same]
  · rw [PerChan.get_set_other _ _ same]
    exact h c

theorem wordOk_zero (ch : Chan) : WordOk ch 0 := fun _ _ => BitVec.getLsbD_zero

/-- Clearing bits keeps the format. -/
theorem WordOk.and {ch : Chan} {w : Word16} (h : WordOk ch w) (m : Word16) : WordOk ch (w &&& m) := fun i hi => by
  rw [BitVec.getLsbD_and, h i hi, Bool.false_and]

/-- Writing a field that holds none of the zero bits keeps the format. -/
theorem WordOk.setField {ch : Chan} {w : Word16} (h : WordOk ch w) {lo n : Nat} (free : FreeField ch lo n)
    (v : BitVec n) : WordOk ch (setField w lo v) := fun i hi =>
  (getLsbD_setField_outside w lo v i hi.lt (free i hi)).trans (h i hi)

theorem freeField_pulse (p : PulseIx) {lo n : Nat} (h : lo + n ≤ 15) : FreeField p.chan lo n := by
  cases p <;> rintro i rfl <;> exact .inr h

theorem freeField_noise {lo n : Nat} (h : lo + n ≤ 13) : FreeField .noise lo n :=
  fun _ hi => .inr (Nat.le_trans h hi.1)

/-- The triangle's period field lies between its zero bits (R146). -/
theorem freeField_triPeriod : FreeField .tri 4 11 := by
  rintro i (low | rfl)
  · exact .inl low
  · exact .inr (Nat.le_refl _)

/-- The volume nibble of a channel with an envelope holds no zero bit (R122). -/
theorem freeField_volume (e : EnvIx) : FreeField e.chan 0 4 := by
  cases e with
  | pulse0 => exact freeField_pulse .pulse0 (by decide)
  | pulse1 => exact freeField_pulse .pulse1 (by decide)
  | noise => exact freeField_noise (by decide)

/-! ### The words `Sync` stages and the triangle's word (R228 to R231, R146) -/

theorem wordOk_stagedPulse {s : State} (h : WordsOk s.cache) (p : PulseIx) : WordOk p.chan (stagedPulse p s) := by
  unfold stagedPulse
  dsimp only
  split
  · exact wordOk_zero _
  · split
    · exact wordOk_zero _
    · split
      · exact wordOk_zero _
      · exact (wordsOk_iff _).mp h _

theorem wordOk_stagedTri {s : State} (h : WordsOk s.cache) : WordOk .tri (stagedTri s) := by
  unfold stagedTri
  split
  · exact (wordsOk_iff _).mp h .tri
  · exact wordOk_zero _

theorem wordOk_stagedNoise {s : State} (h : WordsOk s.cache) : WordOk .noise (stagedNoise s) := by
  have noise : WordOk .noise s.cache.noise := (wordsOk_iff _).mp h .noise
  unfold stagedNoise
  split
  · exact noise
  · exact noise.and _

theorem wordsOk_staged {s : State} (h : WordsOk s.cache) : WordsOk (staged s) := by
  rw [wordsOk_iff]
  intro ch
  cases ch with
  | pulse0 => exact wordOk_stagedPulse h .pulse0
  | pulse1 => exact wordOk_stagedPulse h .pulse1
  | tri => exact wordOk_stagedTri h
  | noise => exact wordOk_stagedNoise h

theorem wordOk_triWord (s : State) : WordOk .tri (triWord s) := by
  unfold triWord
  split
  · exact (wordOk_zero .tri).setField freeField_triPeriod _
  · exact wordOk_zero .tri

/-! ### What keeps a formatted state formatted -/

/-- The two states agree on every word, control byte and envelope. -/
structure SameWords (s t : State) : Prop where
  env : t.env = s.env
  cache : t.cache = s.cache
  pending : t.pending = s.pending
  pendingCtrl : t.pendingCtrl = s.pendingCtrl
  slots : t.slots = s.slots

theorem Formatted.of_same {s t : State} (h : Formatted s) (e : SameWords s t) : Formatted t :=
  ⟨e.cache ▸ h.cache, e.pending ▸ h.pending, e.pendingCtrl ▸ h.pendingCtrl, e.slots ▸ h.slots,
    e.cache ▸ e.env ▸ h.volumes⟩

/-- Writing a Cache word in its format, with the volume nibble it had where the channel has an envelope. -/
theorem Formatted.setWord {s : State} (h : Formatted s) {ch : Chan} {a : Word16} (ok : WordOk ch a)
    (nibble : ∀ e : EnvIx, e.chan = ch → field a 0 4 = field (s.cache.get ch) 0 4) :
    Formatted { s with cache := s.cache.set ch a } where
  cache := h.cache.set ok
  pending := h.pending
  pendingCtrl := h.pendingCtrl
  slots := h.slots
  volumes e := by
    by_cases own : e.chan = ch
    · subst own
      rw [PerChan.get_set_same, nibble e rfl]
      exact h.volumes e
    · rw [PerChan.get_set_other _ _ own]
      exact h.volumes e

/-- Writing a field of a Cache word above the volume nibble that holds no zero bit. -/
theorem Formatted.setField {s : State} (h : Formatted s) {ch : Chan} {lo n : Nat} (free : FreeField ch lo n)
    (above : 4 ≤ lo) (v : BitVec n) :
    Formatted { s with cache := s.cache.set ch (setField (s.cache.get ch) lo v) } :=
  h.setWord (((wordsOk_iff _).mp h.cache ch).setField free v) fun _ _ =>
    field_setField_disjoint _ _ _ _ _ (by decide) (.inl above)

/-- An envelope may change in any way if its channel's volume nibble is then refreshed (R122). -/
theorem Formatted.refresh {s : State} (h : Formatted s) (e : EnvIx) (x : Envelope) :
    Formatted (refreshVolume e { s with env := s.env.set e x }) where
  cache := h.cache.set (((wordsOk_iff _).mp h.cache e.chan).setField (freeField_volume e) _)
  pending := h.pending
  pendingCtrl := h.pendingCtrl
  slots := h.slots
  volumes e' := by
    simp only [refreshVolume_cache, refreshVolume_env]
    by_cases own : e' = e
    · subst own
      rw [PerChan.get_set_same]
      exact field_setField_same _ _ _ (by decide)
    · have chan : e'.chan ≠ e.chan := by cases e <;> cases e' <;> simp [EnvIx.chan] at own ⊢
      rw [PerChan.get_set_other _ _ chan, PerEnv.get_set_other _ _ own]
      exact h.volumes e'

/-- The reload flag is no part of the volume (R122, R128). -/
theorem Formatted.armReload {s : State} (h : Formatted s) (e : EnvIx) : Formatted (armReload e s) :=
  { h with
    volumes := fun e' => by
      have nibble := h.volumes e'
      cases e <;> cases e' <;> exact nibble }

theorem Formatted.recomputeTri {s : State} (h : Formatted s) : Formatted (recomputeTri s) :=
  h.setWord (wordOk_triWord s) fun e own => by cases e <;> cases own

/-! ### `Sync` and the control byte (R226, R232) -/

theorem ctrlOk_or {a b : Byte} (ha : ctrlOk a) (hb : ctrlOk b) : ctrlOk (a ||| b) := by
  rw [ctrlOk, BitVec.extractLsb'_or, ha, hb]
  rfl

theorem ctrlOk_portStage (i : Instr) : ctrlOk (portStage i) := by
  cases i with
  | p0Hi ts v => exact (show ctrlOk (phaseReset .pulse0) by decide)
  | p1Hi ts v => exact (show ctrlOk (phaseReset .pulse1) by decide)
  | _ => exact (show ctrlOk 0 by decide)

theorem Formatted.stage {s : State} (h : Formatted s) (i : Instr) : Formatted (stageCtrl (portStage i) s) :=
  { h with pendingCtrl := ctrlOk_or h.pendingCtrl (ctrlOk_portStage i) }

/-- The slot the flush writes holds the words and the control byte that were pending (R227). -/
theorem Formatted.flush {s : State} (h : Formatted s) : Formatted (flush s) :=
  { h with
    pendingCtrl := show ctrlOk 0 by decide
    slots := fun e he => by
      rcases mem_sparsePut he with rfl | he
      · exact ⟨h.pending, h.pendingCtrl⟩
      · exact h.slots e he }

theorem Formatted.rebuild {s : State} (h : Formatted s) (i : Nat) : Formatted (rebuild i s) :=
  { h with pending := wordsOk_staged h.cache }

theorem Formatted.sync {s : State} (h : Formatted s) (T : Nat) : Formatted (sync T s) := by
  rcases sync_cases T s with ⟨-, e⟩ | ⟨-, e⟩ | ⟨-, e⟩ <;> rw [e]
  · exact h.of_same (by constructor <;> rfl)
  · exact h.rebuild _
  · exact h.flush.rebuild _

/-! ### The scheduled events (R103) -/

/-- The sweep writes the period field (R127). -/
theorem Formatted.clockSweep {s : State} (h : Formatted s) (p : PulseIx) : Formatted (clockSweep p s) := by
  have updated : Formatted (sweepUpdate p s) := by
    unfold sweepUpdate
    split
    · exact h.setField (freeField_pulse p (by decide)) (by decide) _
    · exact h
  unfold Machine.clockSweep
  dsimp only
  split
  · exact updated.of_same (by constructor <;> rfl)
  · exact h.of_same (by constructor <;> rfl)

theorem Formatted.halfStep {s : State} (h : Formatted s) (entry : BitVec 2) : Formatted (clockHalfStep entry s) := by
  unfold clockHalfStep
  split
  · have lengths : Formatted (clockLengths s) := h.of_same (by constructor <;> rfl)
    exact (lengths.clockSweep .pulse0).clockSweep .pulse1
  · exact h

theorem Formatted.clockUnits {s : State} (h : Formatted s) : Formatted (clockUnits s) := by
  have envelopes : Formatted (clockEnvelopes s) := ((h.refresh .pulse0 _).refresh .pulse1 _).refresh .noise _
  have linear : Formatted (clockLinear (clockEnvelopes s)) := envelopes.of_same (by constructor <;> rfl)
  exact (linear.halfStep s.seq.step).of_same (by constructor <;> simp [Machine.clockUnits])

theorem Formatted.tick {s : State} (h : Formatted s) (T : Nat) : Formatted (tick T s) := by
  unfold Machine.tick
  dsimp only
  split
  · exact h.clockUnits.recomputeTri.sync T
  · exact h.clockUnits.sync T

theorem Formatted.event {s : State} (h : Formatted s) (T : Nat) (who : Due) : Formatted (runDue T who s) := by
  cases who with
  | seqTick => exact andThen_keeps (h.tick T) fun _ h => h.of_same (by constructor <;> rfl)
  | triExpiry => exact Formatted.sync (h.recomputeTri.of_same (by constructor <;> rfl)) T
  | dmcTick => exact h.of_same (by constructor <;> simp [runDue])

/-! ### The ports' effects (R104) -/

theorem Formatted.loadLength {s : State} (h : Formatted s) (ch : Chan) (v : Byte) : Formatted (loadLength ch v s) := by
  rw [loadLength_eq]
  exact h.of_same (by constructor <;> rfl)

theorem Formatted.setDuty {s : State} (h : Formatted s) (p : PulseIx) (d : BitVec 2) : Formatted (setDuty p d s) := by
  cases p with
  | pulse0 => exact h.setField (ch := .noise) (freeField_noise (by decide)) (by decide) d
  | pulse1 => exact h.setField (ch := .noise) (freeField_noise (by decide)) (by decide) d

/-- The duty bits do not touch the envelopes, so the new envelope may be set after them (R120). -/
theorem Formatted.pulseCtrl {s : State} (h : Formatted s) (p : PulseIx) (v : Byte) : Formatted (pulseCtrl p v s) :=
  (h.setDuty p (ctrlDuty v)).refresh p.env _

theorem Formatted.pulseHigh {s : State} (h : Formatted s) (p : PulseIx) (v : Byte) : Formatted (pulseHigh p v s) :=
  ((h.setField (freeField_pulse p (by decide)) (by decide) _).loadLength p.chan v).armReload p.env

/-- Mode bit and frequency index lie between the volume nibble and the zero bits (R156). -/
theorem Formatted.noiseModeWrite {s : State} (h : Formatted s) (v : Byte) : Formatted (noiseModeWrite v s) := by
  have mode := h.setField (ch := .noise) (lo := 8) (freeField_noise (by decide)) (by decide) (bit (noiseMode v))
  have frequency := mode.setField (ch := .noise) (lo := 4) (freeField_noise (by decide)) (by decide) (noiseFrequency v)
  exact frequency.of_same (by constructor <;> rfl)

theorem Formatted.triHigh {s : State} (h : Formatted s) (ts : Nat) (v : Byte) : Formatted (triHigh ts v s) := by
  have period : Formatted { s with tri := { s.tri with period := periodHigh v ++ s.tri.period.extractLsb' 0 8 } } :=
    h.of_same (by constructor <;> rfl)
  exact (period.loadLength .tri v).of_same (by constructor <;> rfl)

theorem Formatted.channelEnable {s : State} (h : Formatted s) (ts : Nat) (v : Byte) :
    Formatted (channelEnable ts v s) := by
  refine channelEnable_keeps h (fun _ _ h => h.of_same (by constructor <;> rfl))
    (fun _ h => h.of_same (by constructor <;> rfl)) fun s h => ?_
  rw [dmcEnableWrite_eq]
  exact h.of_same (by constructor <;> rfl)

theorem Formatted.seqControl {s : State} (h : Formatted s) (ts : Nat) (v : Byte) : Formatted (seqControl ts v s) :=
  seqControl_keeps (h.of_same (by constructor <;> rfl)) (fun _ h => h.tick ts)
    fun _ h => h.of_same (by constructor <;> rfl)

theorem Formatted.effect {s : State} (h : Formatted s) (i : Instr) : Formatted (portEffect i s) := by
  cases i with
  | p0Ctrl ts v | p1Ctrl ts v => exact h.pulseCtrl _ _
  | p0Lo ts v => exact h.setField (freeField_pulse .pulse0 (by decide)) (by decide) _
  | p1Lo ts v => exact h.setField (freeField_pulse .pulse1 (by decide)) (by decide) _
  | p0Hi ts v | p1Hi ts v => exact h.pulseHigh _ _
  | triHi ts v => exact h.triHigh _ _
  | noiCtrl ts v => exact h.refresh .noise _
  | noiMode ts v => exact h.noiseModeWrite _
  | noiLen ts v => exact (h.loadLength .noise _).armReload .noise
  | chEnable ts v => exact h.channelEnable _ _
  | seqCtrl ts v => exact h.seqControl _ _
  | _ => exact h.of_same (by constructor <;> rfl)

/-! ### A step -/

theorem checkTime_sameWords (ts : Nat) (s : State) : SameWords s (checkTime ts s) := by
  rcases checkTime_cases ts s with ⟨-, e⟩ | ⟨-, e⟩ <;> rw [e] <;> constructor <;> rfl

theorem passWait_sameWords (ts : Nat) (s : State) : SameWords s (passWait ts s) := by
  unfold passWait
  split <;> constructor <;> rfl

theorem consumerAdvance_sameWords (s : State) : SameWords s (consumerAdvance s) := by
  unfold consumerAdvance
  split <;> constructor <;> rfl

theorem formatted_closed : Closed Formatted where
  check ts s h := h.of_same (checkTime_sameWords ts s)
  event _ T who _ _ h := h.event T who
  effect i _ h := h.effect i
  sync T _ h := h.sync T
  stage i _ h := h.stage i
  status _ h := h.of_same (by constructor <;> rfl)
  enter ts s h := by
    have held : Formatted { s with eofWait := some ts } := h.of_same (by constructor <;> rfl)
    exact held.of_same (passWait_sameWords ts _)
  pass ts s h := h.of_same (passWait_sameWords ts s)
  consumer s h := h.of_same (consumerAdvance_sameWords s)
  turns _ _ h := h.of_same (by constructor <;> rfl)
  take _ h := h.of_same (by constructor <;> rfl)

/-- Settles O54: every piece of a step writes fields clear of the zero bits, stages words of the Cache or parts of them,
and refreshes the volume nibble where it changes an envelope. -/
theorem stepKeepsTheWordFormats : Obligations.StepKeepsTheWordFormats :=
  fun _ _ h hs => formatted_closed.step h hs

end Sys2Proof.Machine
end

section
/-! SUPPORT. The entry points (R100 to R109): how a command opens, what its catch-up runs and leaves alone, and the
commands that write no unit's register. -/

namespace Sys2Proof

theorem Instr.wf_eq (i : Instr) : i.wf = (timestampOk i.ts && i.value.all valueOk) := by
  cases i with
  | rdStatus ts | force ts | eof ts => exact (Bool.and_true _).symm
  | _ => rfl

theorem Instr.wf_iff (i : Instr) : i.wf = true ↔ i.ts < 2 ^ 32 ∧ ∀ v, i.value = some v → v < 2 ^ 8 := by
  simp [Instr.wf_eq, timestampOk, valueOk, Option.all_eq_true]

end Sys2Proof

namespace Sys2Proof.Machine

/-! ### The opening (R101, R102) -/

/-- Settles O7: `exec` validates every command's operands before its body. -/
theorem outOfRangeOperandsAreRefused : Obligations.OutOfRangeOperandsAreRefused := by
  intro i s
  refine ⟨i.wf_iff, fun h => ?_⟩
  rw [exec_eq, validated, h]
  rfl

/-- A timestamp that does not go back is recorded, then the events up to it run (R102, R103). -/
theorem arrive_inTime {ts : Nat} {s : State} (noFault : s.fault = none) (inTime : s.lastTs ≤ ts) :
    arrive ts s = catchUp ts { s with lastTs := ts } := by
  rw [arrive, andThen_ok noFault, checkTime_ok inTime]
  exact andThen_ok (s := { s with lastTs := ts }) noFault _

/-- An earlier timestamp raises the violation, and no event runs (R102, R260). -/
theorem arrive_late {ts : Nat} {s : State} (noFault : s.fault = none) (late : ts < s.lastTs) :
    arrive ts s = raise (.timingViolation ts s.lastTs) s := by
  rw [arrive, andThen_ok noFault, checkTime, if_pos late]
  exact andThen_fault (Option.some_ne_none _) _

/-- Settles O8: the opening raises the violation, and no piece of the command runs after it. -/
theorem earlierTimestampRaisesTheViolation : Obligations.EarlierTimestampRaisesTheViolation := by
  intro i s wf noFault late
  have raised := arrive_late noFault late
  rw [exec_of_wf wf, commandBody_of_fault (by rw [raised]; exact Option.some_ne_none _), raised]
  rfl

/-! ### The command taken (R100) -/

theorem step_command {s : State} {w : CommandWord} {rest : List CommandWord} {i : Instr}
    (turn : s.turns.head? ≠ some .consumer) (hf : s.fault = none) (he : s.eofWait = none) (hc : s.cmds = w :: rest)
    (hd : decode w = .ok i) : step s = exec i { s with turns := s.turns.tail, cmds := rest } := by
  have work : engineWork { s with turns := s.turns.tail } = .command w := engineWork_command hf he hc
  simp only [step, takeTurn_engine turn, work, hd]
  simp only [takeCommand, hc, List.tail_cons]

theorem decode_of_decodeTableWord {n w : Nat} {i : Instr} (h : decodeTableWord n w = some i) :
    decode (tableWord n w) = .ok i := by
  unfold decodeTableWord at h
  split at h
  · rename_i e
    rw [e, Option.some.inj h]
  · cases h

/-- Settles O5: the presented word is decoded and taken off the stream; `withFetchWord` presents its word. -/
theorem stepRunsTheDecodedCommand : Obligations.StepRunsTheDecodedCommand := by
  refine ⟨fun s w rest i => step_command, fun s w i h => ?_⟩
  exact step_command (s := s.withFetchWord 64 w) (by simp [State.withFetchWord]) rfl rfl rfl
    (decode_of_decodeTableWord h)

/-! ### The choice of the next event (R103) -/

/-- The tie-break order of R103. -/
def Due.rank : Due → Nat
  | .seqTick => 0
  | .triExpiry => 1
  | .dmcTick => 2

/-- R103's order of the scheduled events: by time, then by rank. -/
def Precedes (e x : Nat × Due) : Prop := e.1 < x.1 ∨ e.1 = x.1 ∧ e.2.rank ≤ x.2.rank

theorem precedes_iff_le {t t' : Nat} {who who' : Due} (h : who.rank ≤ who'.rank) :
    Precedes (t, who) (t', who') ↔ t ≤ t' := by
  simp only [Precedes]
  omega

theorem precedes_iff_lt {t t' : Nat} {who who' : Due} (h : who'.rank < who.rank) :
    Precedes (t, who) (t', who') ↔ t < t' := by
  simp only [Precedes]
  omega

theorem Due.rank_injective {who who' : Due} (h : who.rank = who'.rank) : who = who' := by
  revert h
  cases who <;> cases who' <;> decide

theorem Precedes.antisymm {e x : Nat × Due} (h : Precedes e x) (k : Precedes x e) : e = x := by
  obtain ⟨t, who⟩ := e
  obtain ⟨t', who'⟩ := x
  simp only [Precedes] at h k
  have time : t = t' := by omega
  rw [time, Due.rank_injective (show who.rank = who'.rank by omega)]

/-- The schedule lists the events by rising rank. -/
theorem schedule_rank (s : State) : (schedule s).Pairwise fun x y => x.2.rank < y.2.rank := by
  unfold schedule
  cases s.tri.updateAt <;> cases s.dmc.nextCommit <;> simp [Due.rank]

/-- Of events listed by rising rank, the earliest precedes them all. -/
theorem earliest_precedes {l : List (Nat × Due)} {e : Nat × Due} (sorted : l.Pairwise fun x y => x.2.rank < y.2.rank)
    (h : earliest l = some e) : ∀ x ∈ l, Precedes e x := by
  induction l generalizing e with
  | nil => simp
  | cons x rest ih =>
    obtain ⟨first, sorted⟩ := List.pairwise_cons.mp sorted
    simp only [earliest] at h
    cases hr : earliest rest with
    | none =>
      obtain rfl := earliest_eq_none.mp hr
      obtain rfl : x = e := by simpa [hr] using h
      simp [Precedes]
    | some y =>
      have later := ih sorted hr
      have rank := first y (earliest_spec hr).1
      rw [hr] at h
      by_cases hlt : y.1 < x.1
      · obtain rfl : y = e := by simpa [hlt] using h
        exact List.forall_mem_cons.mpr ⟨.inl hlt, later⟩
      · obtain rfl : x = e := by simpa [hlt] using h
        refine List.forall_mem_cons.mpr ⟨.inr ⟨rfl, Nat.le_refl _⟩, fun z hz => ?_⟩
        have rz := first z hz
        have yz := later z hz
        simp only [Precedes] at yz ⊢
        omega

theorem mem_due {ts T : Nat} {who : Due} {s : State} :
    (T, who) ∈ (schedule s).filter (fun e => decide (e.1 ≤ ts)) ↔ dueAt s who = some T ∧ T ≤ ts := by
  simp [mem_schedule]

theorem nextDue_precedes {ts : Nat} {e : Nat × Due} {s : State} (h : nextDue ts s = some e) {who : Due} {T : Nat}
    (hd : dueAt s who = some T) : Precedes e (T, who) := by
  by_cases due : T ≤ ts
  · exact earliest_precedes ((schedule_rank s).filter _) h _ (mem_due.mpr ⟨hd, due⟩)
  · exact .inl (Nat.lt_of_le_of_lt (nextDue_some h).1 (Nat.not_le.mp due))

/-- The event run next is the due one that precedes every other scheduled event (R103). -/
theorem nextDue_iff {ts T : Nat} {who : Due} {s : State} : nextDue ts s = some (T, who) ↔
    dueAt s who = some T ∧ T ≤ ts ∧ ∀ who' T', dueAt s who' = some T' → Precedes (T, who) (T', who') := by
  constructor
  · intro h
    obtain ⟨due, hd, -⟩ := nextDue_some h
    exact ⟨hd, due, fun _ _ => nextDue_precedes h⟩
  · rintro ⟨hd, due, least⟩
    cases hn : nextDue ts s with
    | none =>
      have mem := mem_due.mpr ⟨hd, due⟩
      rw [earliest_eq_none.mp hn] at mem
      cases mem
    | some e =>
      obtain ⟨-, he, -⟩ := nextDue_some hn
      exact congrArg some ((nextDue_precedes hn hd).antisymm (least _ _ he))

/-- What holds of every scheduled event, event by event. -/
theorem forall_due {p : Due → Prop} : (∀ who, p who) ↔ p .seqTick ∧ p .triExpiry ∧ p .dmcTick :=
  ⟨fun h => ⟨h _, h _, h _⟩, fun ⟨h1, h2, h3⟩ who => by cases who <;> assumption⟩

/-- Settles O10: the event chosen is the due one that precedes all, written out for each of the three. -/
theorem catchUpPicksTheEarliestEvent : Obligations.CatchUpPicksTheEarliestEvent := by
  intro ts s
  refine ⟨nextDue_none, fun T => ?_, fun T => ?_, fun T => ?_⟩ <;>
    simp only [nextDue_iff, forall_due, dueAt, Option.some.injEq] <;>
    refine and_congr_right fun h => and_congr_right fun _ => ?_
  · simp (disch := decide) [h, precedes_iff_le]
  · simp (disch := decide) [h, precedes_iff_le, precedes_iff_lt]
  · simp (disch := decide) [h, precedes_iff_le, precedes_iff_lt]

/-! ### What the catch-up runs (R103, R182) -/

theorem tick_stepRegs (T : Nat) (s : State) :
    (tick T s).seq.stepP2 = s.seq.stepP2 ∧ (tick T s).seq.half = s.seq.half := by
  rw [tick_seq, clockUnits_seq]
  exact ⟨rfl, rfl⟩

/-- The sequencer's event is its tick and the schedule of the next from its own due time (R182). -/
theorem runDue_seqTick_eq {T : Nat} {s : State} (h : (tick T s).fault = none) :
    runDue T .seqTick s = { tick T s with seq := { (tick T s).seq with
      nextTick := T + (s.seq.stepP2 + s.seq.half.toNat) / 2, half := !s.seq.half } } := by
  obtain ⟨stepP2, half⟩ := tick_stepRegs T s
  rw [runDue_seqTick h, scheduleTick, stepLength_eq, stepP2, half]

theorem runDue_seqTick_of_fault {T : Nat} {s : State} (h : (tick T s).fault ≠ none) :
    runDue T .seqTick s = tick T s := andThen_fault h _

theorem tick_fault_of_runDue {T : Nat} {s : State} (h : (runDue T .seqTick s).fault = none) :
    (tick T s).fault = none := by
  by_contra hf
  exact hf (runDue_seqTick_of_fault hf ▸ h)

/-- Where the first due event raises nothing, catching up is running it and catching up from there. -/
theorem catchUp_next {ts T : Nat} {who : Due} {s : State} (hm : Moving s) (hn : nextDue ts s = some (T, who))
    (hf : (runDue T who s).fault = none) : catchUp ts s = catchUp ts (runDue T who s) := by
  have less := runDue_fuel hm hn hf
  calc catchUp ts s = catchUpLoop ts (catchUpFuel ts s - 1 + 1) s := by rw [catchUp, Nat.sub_add_cancel (by omega)]
    _ = catchUpLoop ts (catchUpFuel ts s - 1) (runDue T who s) := by simp only [catchUpLoop, hn, andThen_ok hf]
    _ = catchUp ts (runDue T who s) := catchUpLoop_stable _ _ _ (runDue_moving hm) (by omega) (Nat.le_refl _)

/-- Settles O11: each event is its own operation, the loop takes them one by one, and its fuel never runs out. -/
theorem catchUpRunsEventsInOrder : Obligations.CatchUpRunsEventsInOrder := by
  refine ⟨fun T s => ⟨rfl, rfl, runDue_seqTick_eq, runDue_seqTick_of_fault⟩, fun ts s noFault inTime idle => ?_,
    fun ts T who s hc hn hf => ⟨catchUp_next hc.moving hn hf, ?_, fun other => ?_⟩⟩
  · rw [arrive_inTime noFault inTime]
    exact catchUp_of_noneDue ⟨idle.tick, idle.tri, idle.dmc⟩
  · rintro rfl
    rw [runDue_seqTick_eq (tick_fault_of_runDue hf)]
  · cases who with
    | seqTick => exact absurd rfl other
    | triExpiry => exact triExpire_seq T s
    | dmcTick => exact dmcTick_seq T s

/-! ### What the catch-up leaves alone (R103) -/

/-- What raising, moving `last_ts` and every event leave of a state, a command's opening leaves. -/
theorem arrive_read {α : Type} (read : State → α) (raised : ∀ f s, read (raise f s) = read s)
    (timed : ∀ ts s, read { s with lastTs := ts } = read s) (event : ∀ T who s, read (runDue T who s) = read s)
    (ts : Nat) (s : State) : read (arrive ts s) = read s := by
  refine arrive_keeps (P := fun t => read t = read s) rfl (fun _ => ?_) fun T who t _ h => (event T who t).trans h
  rcases checkTime_cases ts s with ⟨-, e⟩ | ⟨-, e⟩ <;> rw [e]
  · exact raised _ s
  · exact timed ts s

theorem arrive_bridgeRegs (ts : Nat) (s : State) : bridgeRegs (arrive ts s) = bridgeRegs s :=
  arrive_read bridgeRegs (fun _ _ => rfl) (fun _ _ => rfl) (by simp [bridgeRegs]) ts s

/-- The registers of an envelope that only a port's write sets (R120). -/
def envelopeRegs (e : Envelope) := (e.period, e.constant, e.loop)

/-- The registers of a sweep that only a port's write sets (R125). -/
def sweepRegs (w : Sweep) := (w.period, w.enabled, w.negate, w.shift)

theorem runDue_envelopeRegs (e : EnvIx) (T : Nat) (who : Due) (s : State) :
    envelopeRegs ((runDue T who s).env.get e) = envelopeRegs (s.env.get e) := by
  cases who with
  | seqTick =>
    refine andThen_keeps (P := fun t => envelopeRegs (t.env.get e) = envelopeRegs (s.env.get e)) ?_ fun _ h => h
    simp [tick_env, envelopeRegs, envelopeClocked_kept]
  | triExpiry => simp [runDue]
  | dmcTick => simp [runDue]

theorem runDue_sweepRegs (p : PulseIx) (T : Nat) (who : Due) (s : State) :
    sweepRegs ((runDue T who s).sweep.get p) = sweepRegs (s.sweep.get p) := by
  cases who with
  | seqTick =>
    refine andThen_keeps (P := fun t => sweepRegs (t.sweep.get p) = sweepRegs (s.sweep.get p)) ?_ fun _ h => h
    rw [tick_sweep]
    split
    · simp [sweepRegs, sweepClocked_kept]
    · rfl
  | triExpiry => simp [runDue]
  | dmcTick => simp [runDue]

/-- Settles O12: no event writes any of these registers, nor does the timestamp check. -/
theorem catchUpFrame : Obligations.CatchUpFrame := by
  intro ts s c
  obtain ⟨inputs, lenEnable, mode, control, period, noise, player⟩ : SameSetup s c := arrive_sameSetup ts s
  have bridge : bridgeRegs c = bridgeRegs s := arrive_bridgeRegs ts s
  have env : ∀ e, envelopeRegs (c.env.get e) = envelopeRegs (s.env.get e) := fun e =>
    arrive_read (fun t => envelopeRegs (t.env.get e)) (fun _ _ => rfl) (fun _ _ => rfl) (runDue_envelopeRegs e) ts s
  have sweep : ∀ p, sweepRegs (c.sweep.get p) = sweepRegs (s.sweep.get p) := fun p =>
    arrive_read (fun t => sweepRegs (t.sweep.get p)) (fun _ _ => rfl) (fun _ _ => rfl) (runDue_sweepRegs p) ts s
  simp only [inputRegs, modeRegs, bridgeRegs, envelopeRegs, sweepRegs, Prod.mk.injEq] at inputs mode bridge env sweep
  obtain ⟨cfg, mem, readPos, cmds, turns⟩ := inputs
  obtain ⟨seqMode, stepP2, irqInhibit⟩ := mode
  obtain ⟨offset, eofWait⟩ := bridge
  exact ⟨cfg, lenEnable, noise, offset, eofWait, mem, readPos, cmds, turns, seqMode, stepP2, irqInhibit, period,
    control, player.loop, player.irqEnable, player.rate, player.period, player.start, player.len, env, sweep⟩

/-! ### A ready command in a timely state (R264) -/

/-- In a timely state the last command's time is reached. -/
theorem Timely.reached {s : State} (h : Timely s) : Reached s.lastTs s where
  due who T hd := by
    cases who with
    | seqTick => cases hd; exact Nat.le_of_lt h.noneDue.tick
    | triExpiry => exact Nat.le_of_lt (h.noneDue.tri T hd)
    | dmcTick => exact Nat.le_of_lt (h.noneDue.dmc T hd)
  pending := h.pending
  staged := h.staged

theorem Timely.arrive_current {i : Instr} {s : State} (hc : Configured s) (ht : Timely s) (ready : Ready i s) :
    Current i.ts (arrive i.ts s) := by
  rw [arrive_inTime ready.noFault ready.inTime]
  exact catchUp_current (s := { s with lastTs := i.ts }) (hc.of_eq rfl rfl rfl rfl rfl) ready.inTime
    { ht.reached with due := fun who T hd => ht.reached.due who T (by cases who <;> exact hd) } rfl ready.noWait
    ready.noFault

/-- Settles O9: the catch-up from a timely state leaves the state current at the command's timestamp. -/
theorem timelyCommandIsServed : Obligations.TimelyCommandIsServed := by
  intro i s hc ht ready
  have current := ht.arrive_current hc ready
  exact ⟨⟨ready, current.noFault, current.pending⟩, current.noneDue, current.now⟩

/-! ### `FORCE` and the empty ports (R106, R108) -/

theorem Quiet.refl (c : State) : Quiet [] c c := ⟨rfl, rfl, rfl, rfl, rfl, rfl, rfl, rfl, (List.append_nil _).symm⟩

/-- A command's own `Sync` right after its catch-up. -/
theorem Served.synced {i : Instr} {s : State} (h : Served i s) :
    Synced i.ts 0 [] (arrive i.ts s) (sync i.ts (arrive i.ts s)) := by
  have := synced_of_quiet (ts := i.ts) (bits := 0) (Quiet.refl (arrive i.ts s)) h.inOrder
  rwa [stageCtrl_zero] at this

theorem Served.sync_fault {i : Instr} {s : State} (h : Served i s) : (sync i.ts (arrive i.ts s)).fault = none :=
  (sync_fault_of_le h.inOrder).trans h.caughtUp

/-- Whether a command is served depends on its range and its timestamp alone. -/
theorem Served.of_ts {i j : Instr} {s : State} (h : Served j s) (hw : i.wf = true) (ht : i.ts = j.ts) : Served i s where
  wf := hw
  noFault := h.noFault
  noWait := h.noWait
  inTime := ht ▸ h.inTime
  caughtUp := ht ▸ h.caughtUp
  inOrder := ht ▸ h.inOrder

theorem exec_force {ts : Nat} {s : State} (h : Served (.force ts) s) :
    exec (.force ts) s = .next (sync ts (arrive ts s)) := by
  have caughtUp : (arrive ts s).fault = none := h.caughtUp
  rw [exec_of_wf h.wf, commandBody, andThen_ok caughtUp]

/-- The four ports without a behaviour are `WRITE`s of their byte without an effect. -/
theorem nopInstrs_spec {ts v : Nat} {i : Instr} (h : i ∈ nopInstrs ts v) :
    i.ts = ts ∧ i.value = some v ∧ ∀ s, exec i s = writeCommand i noEffect 0 s := by
  simp only [nopInstrs, List.mem_cons, List.not_mem_nil, or_false] at h
  rcases h with rfl | rfl | rfl | rfl <;> exact ⟨rfl, rfl, fun _ => rfl⟩

theorem exec_nop {ts v : Nat} {i : Instr} {s : State} (hi : i ∈ nopInstrs ts v) (hv : v < 2 ^ 8)
    (h : Served (.force ts) s) : exec i s = .next (sync ts (arrive ts s)) := by
  obtain ⟨hts, hval, write⟩ := nopInstrs_spec hi
  have inRange : ts < 2 ^ 32 := ((Instr.wf_iff _).mp h.wf).1
  have wf : i.wf = true := (Instr.wf_iff i).mpr ⟨hts ▸ inRange, fun u hu => by cases hval.symm.trans hu; exact hv⟩
  rw [exec_write (write s) (h.of_ts wf hts) (Quiet.refl _), stageCtrl_zero, hts]
  rfl

/-- Settles O28: each of the five is the catch-up and the `Sync` after it. -/
theorem forceAndEmptyPortsOnlySynchronise : Obligations.ForceAndEmptyPortsOnlySynchronise :=
  fun ts _ s hv h => ⟨sync ts (arrive ts s), exec_force h, sync_eq_withFifo h.inOrder, h.synced,
    fun _ hi => exec_nop hi hv h⟩

/-! ### `RD_STATUS` (R105, R170) -/

/-- The bits of a byte put together as the status byte is (R98). -/
theorem getLsbD_bits (irq dmc noise tri pulse1 pulse0 : Bool) :
    let r : Byte := bit false ++ bit irq ++ bit false ++ bit dmc ++ bit noise ++ bit tri ++ bit pulse1 ++ bit pulse0
    r.getLsbD 0 = pulse0 ∧ r.getLsbD 1 = pulse1 ∧ r.getLsbD 2 = tri ∧ r.getLsbD 3 = noise ∧ r.getLsbD 4 = dmc ∧
      r.getLsbD 6 = irq := by
  decide +revert

/-- The bits of the status byte that R170 and R98 give. -/
theorem statusByte_bits (s : State) :
    (statusByte s).getLsbD 0 = (s.length.pulse0 != 0) ∧ (statusByte s).getLsbD 1 = (s.length.pulse1 != 0) ∧
    (statusByte s).getLsbD 2 = (s.length.tri != 0) ∧ (statusByte s).getLsbD 3 = (s.length.noise != 0) ∧
    (statusByte s).getLsbD 4 = s.dmc.active ∧ (statusByte s).getLsbD 6 = s.seq.frameIrq :=
  getLsbD_bits ..

/-- Settles O29: after the catch-up the status byte is reported and the frame flag cleared. -/
theorem statusReadReturnsAndClears : Obligations.StatusReadReturnsAndClears := by
  intro ts s ready caughtUp c
  refine ⟨statusRead c, statusByte c, ?_, rfl, statusByte_bits c⟩
  rw [exec_of_wf ready.wf, commandBody, andThen_ok caughtUp]

/-! ### `EOF` (R107, R250 to R252) -/

theorem exec_eof {ts : Nat} {s : State} (h : Served (.eof ts) s) :
    exec (.eof ts) s = .next (enterWait ts (sync ts (arrive ts s))) := by
  have caughtUp : (arrive ts s).fault = none := h.caughtUp
  have synced : (sync ts (arrive ts s)).fault = none := h.sync_fault
  rw [exec_of_wf h.wf, commandBody, andThen_ok caughtUp, andThen_ok synced]

theorem arrive_cfg (ts : Nat) (s : State) : (arrive ts s).cfg = s.cfg :=
  congrArg Prod.fst (arrive_sameSetup ts s).inputs

theorem enterWait_proceed {s : State} (h : lead s ≤ s.cfg.leadSlots) (ts : Nat) :
    enterWait ts s = rebase ts { s with eofWait := some ts } :=
  passWait_proceed (s := { s with eofWait := some ts }) h ts

theorem enterWait_hold {s : State} (h : s.cfg.leadSlots < lead s) (ts : Nat) :
    enterWait ts s = { s with eofWait := some ts } :=
  passWait_hold (s := { s with eofWait := some ts }) h ts

/-- The wait touches nothing of what a `Sync` leaves. -/
theorem Synced.hold {ts : Nat} {bits : Byte} {pre : List Event} {c t : State} (h : Synced ts bits pre c t)
    (wait : Option Nat) : Synced ts bits pre c { t with eofWait := wait } :=
  ⟨h.index, h.words, h.events, h.kept, h.flushed⟩

/-- Nor does the rebase. -/
theorem Synced.rebase {ts : Nat} {bits : Byte} {pre : List Event} {c t : State} (h : Synced ts bits pre c t)
    (last : Nat) : Synced ts bits pre c (rebase last t) :=
  ⟨h.index, h.words, h.events, h.kept, h.flushed⟩

/-- Settles O30: the lead after the flush lets the wait pass at once, and the rebase moves the times. -/
theorem endOfFrameFlushesAndRebases : Obligations.EndOfFrameFlushesAndRebases := by
  intro ts s h short c D
  have fifo : sync ts c = withFifo c (sync ts c) := sync_eq_withFifo h.inOrder
  have proceed := enterWait_proceed (s := sync ts c) (by rw [sync_cfg, arrive_cfg]; exact short) ts
  refine ⟨_, exec_eof h, ?_, ?_⟩
  · rw [proceed]
    exact (h.synced.hold _).rebase ts
  · rw [proceed]
    refine (congrArg (fun t : State => rebase ts { t with eofWait := some ts }) fifo).trans ?_
    simp only [rebase, rebaseAmount_eq]
    rfl

/-- Settles O31: the lead after the flush holds the engine at the wait. -/
theorem endOfFrameIsHeldWhileTheLeadIsTooGreat : Obligations.EndOfFrameIsHeldWhileTheLeadIsTooGreat := by
  intro ts s h long
  have fifo : sync ts (arrive ts s) = withFifo (arrive ts s) (sync ts (arrive ts s)) := sync_eq_withFifo h.inOrder
  have held := enterWait_hold (s := sync ts (arrive ts s)) (by rw [sync_cfg, arrive_cfg]; exact long) ts
  refine ⟨_, exec_eof h, ?_, ?_⟩
  · rw [held]
    exact h.synced.hold _
  · rw [held]
    exact congrArg (fun t : State => { t with eofWait := some ts }) fifo

end Sys2Proof.Machine
end

section
/-! SUPPORT. The clocked units of the pulses: the envelope's clock and its run (R122, R123, R129), the sweep's clock and
its calculation (R126, R127). -/

namespace Sys2Proof.Machine

/-! ### One clock of an envelope (R122, R123) -/

theorem envelopeClocked_reload {e : Envelope} (h : e.reload = true) :
    envelopeClocked e = { e with reload := false, level := 15, divider := e.period } := by
  rw [envelopeClocked, if_pos h]

theorem envelopeClocked_divide {e : Envelope} (h : e.reload = false) (hd : e.divider ≠ 0) :
    envelopeClocked e = { e with divider := e.divider - 1 } := by
  rw [envelopeClocked, h, if_neg Bool.false_ne_true, if_neg hd]

theorem envelopeClocked_decay {e : Envelope} (h : e.reload = false) (hd : e.divider = 0) (hl : e.level ≠ 0) :
    envelopeClocked e = { e with divider := e.period, level := e.level - 1 } := by
  rw [envelopeClocked, h, if_neg Bool.false_ne_true, if_pos hd, if_pos hl]

theorem envelopeClocked_bottom {e : Envelope} (h : e.reload = false) (hd : e.divider = 0) (hl : e.level = 0) :
    envelopeClocked e = { e with divider := e.period, level := if e.loop then 15 else 0 } := by
  rw [envelopeClocked, h, if_neg Bool.false_ne_true, if_pos hd, if_neg (not_not.mpr hl)]

theorem clockEnvelope_word (e : EnvIx) (s : State) :
    (clockEnvelope e s).cache.get e.chan = setField (s.cache.get e.chan) 0 (volume ((clockEnvelope e s).env.get e)) :=
  PerChan.get_set_same ..

/-- Settles O33: the cases of the envelope's own clock, then the volume nibble put in its word. -/
theorem envelopeClock : Obligations.EnvelopeClock := by
  intro e s old t new
  have clocked : new = envelopeClocked old := PerEnv.get_set_same ..
  have word : t.cache.get e.chan = setField (s.cache.get e.chan) 0 (volume new) := clockEnvelope_word e s
  refine ⟨?reload, ?divide, ?decay, ?loop, ?stay, ?volume, ?bits, ?envelopes, ?words, rfl⟩
  case reload => exact fun h => clocked.trans (envelopeClocked_reload h)
  case divide => exact fun h hd => clocked.trans (envelopeClocked_divide h hd)
  case decay => exact fun h hd hl => clocked.trans (envelopeClocked_decay h hd hl)
  case loop =>
    intro h hd hl hloop
    rw [clocked, envelopeClocked_bottom h hd hl, hloop, if_pos rfl]
  case stay =>
    intro h hd hl hloop
    rw [clocked, envelopeClocked_bottom h hd hl, hloop, if_neg Bool.false_ne_true, ← hl]
  case volume => rw [word, field_setField_same _ _ _ (by decide), volume]
  case bits => rw [word, field_setField_disjoint _ _ _ _ _ (by decide) (by decide)]
  case envelopes => exact fun _ other => PerEnv.get_set_other _ _ other
  case words => exact fun _ other => PerChan.get_set_other _ _ other

/-! ### An envelope's run from a reload (R129) -/

/-- `e` past its reload, on level `l` with `d` in its divider. -/
def onLevel (e : Envelope) (l d : Nat) : Envelope :=
  { e with reload := false, level := BitVec.ofNat 4 l, divider := BitVec.ofNat 4 d }

theorem envelopeClocked_eq_onLevel {e : Envelope} (h : e.reload = true) :
    envelopeClocked e = onLevel e 15 e.period.toNat := by
  simp [envelopeClocked_reload h, onLevel]

theorem ofNat_four_succ_ne_zero {n : Nat} (h : n + 1 < 16) : BitVec.ofNat 4 (n + 1) ≠ 0 := by
  bv_omega

theorem envelopeClocked_onLevel_succ {e : Envelope} {l d : Nat} (h : d + 1 < 16) :
    envelopeClocked (onLevel e l (d + 1)) = onLevel e l d := by
  rw [envelopeClocked_divide rfl (ofNat_four_succ_ne_zero h)]
  simp [onLevel, BitVec.ofNat_add]

theorem envelopeClocked_onLevel_zero {e : Envelope} {l : Nat} (h : l + 1 < 16) :
    envelopeClocked (onLevel e (l + 1) 0) = onLevel e l e.period.toNat := by
  rw [envelopeClocked_decay rfl rfl (ofNat_four_succ_ne_zero h)]
  simp [onLevel, BitVec.ofNat_add]

/-- Within a level only the divider moves. -/
theorem iterate_onLevel (e : Envelope) (l d : Nat) {r : Nat} (h : d + r < 16) :
    envelopeClocked^[r] (onLevel e l (d + r)) = onLevel e l d := by
  induction r with
  | zero => rfl
  | succ r ih =>
    rw [Function.iterate_succ_apply, ← Nat.add_assoc, envelopeClocked_onLevel_succ (d := d + r) h, ih (by omega)]

/-- A level lasts `period + 1` clocks. -/
theorem iterate_level {e : Envelope} {l : Nat} (h : l + 1 < 16) :
    envelopeClocked^[e.period.toNat + 1] (onLevel e (l + 1) e.period.toNat) = onLevel e l e.period.toNat := by
  have through := iterate_onLevel e (l + 1) 0 (r := e.period.toNat) (by omega)
  rw [Nat.zero_add] at through
  rw [Function.iterate_succ_apply', through, envelopeClocked_onLevel_zero h]

theorem iterate_levels (e : Envelope) (l : Nat) {q : Nat} (h : l + q < 16) :
    envelopeClocked^[(e.period.toNat + 1) * q] (onLevel e (l + q) e.period.toNat) = onLevel e l e.period.toNat := by
  induction q with
  | zero => rfl
  | succ q ih =>
    rw [Nat.mul_succ, Function.iterate_add_apply, ← Nat.add_assoc, iterate_level (l := l + q) h, ih (by omega)]

/-- Where the envelope is after `q` whole levels and `r` clocks of the next. -/
theorem iterate_run {e : Envelope} {q r : Nat} (hq : q < 16) (hr : r ≤ e.period.toNat) :
    envelopeClocked^[r + (e.period.toNat + 1) * q] (onLevel e 15 e.period.toNat) =
      onLevel e (15 - q) (e.period.toNat - r) := by
  have levels := iterate_levels e (15 - q) (q := q) (by omega)
  have within := iterate_onLevel e (15 - q) (e.period.toNat - r) (r := r) (by omega)
  rw [Nat.sub_add_cancel (by omega)] at levels within
  rw [Function.iterate_add_apply, levels, within]

/-- The envelope has run out and does not loop. -/
structure Silent (e : Envelope) : Prop where
  reload : e.reload = false
  loop : e.loop = false
  level : e.level = 0

theorem Silent.clocked {e : Envelope} (h : Silent e) : Silent (envelopeClocked e) := by
  by_cases hd : e.divider = 0
  · rw [envelopeClocked_bottom h.reload hd h.level]
    exact ⟨h.reload, h.loop, by simp [h.loop]⟩
  · rw [envelopeClocked_divide h.reload hd]
    exact ⟨h.reload, h.loop, h.level⟩

/-- Settles O34: the run goes through sixteen levels of `period + 1` clocks each; at the bottom an envelope without
`loop` stays silent. -/
theorem envelopeDecaysOneLevelEveryPeriodPlusOneClocks :
    Obligations.EnvelopeDecaysOneLevelEveryPeriodPlusOneClocks := by
  intro e h n start
  have started : start = onLevel e 15 e.period.toNat := envelopeClocked_eq_onLevel h
  rw [started]
  refine ⟨fun m hm => ?levels, fun hloop m hm => ?silent, fun hloop => ?looped⟩
  case levels =>
    have run := iterate_run (e := e) (q := m / n) (r := m % n) (Nat.div_lt_of_lt_mul (by omega))
      (Nat.le_of_lt_succ (Nat.mod_lt _ (Nat.succ_pos _)))
    rw [Nat.mod_add_div] at run
    rw [run]
    rfl
  case silent =>
    have bottom : Silent (envelopeClocked^[15 * n] (onLevel e 15 e.period.toNat)) := by
      have run := iterate_run (e := e) (q := 15) (r := 0) (by decide) (Nat.zero_le _)
      rw [Nat.zero_add, Nat.mul_comm] at run
      rw [run]
      exact ⟨rfl, hloop, rfl⟩
    rw [← Nat.sub_add_cancel hm, Function.iterate_add_apply]
    exact (Function.Iterate.rec Silent bottom (fun _ => Silent.clocked) _).level
  case looped =>
    have run := iterate_run (e := e) (q := 15) (r := e.period.toNat) (by decide) le_rfl
    rw [Nat.sub_self, Nat.sub_self] at run
    rw [show 16 * n = e.period.toNat + (e.period.toNat + 1) * 15 + 1 by omega, Function.iterate_succ_apply', run,
      envelopeClocked_bottom rfl rfl rfl]
    exact if_pos hloop

/-! ### One clock of a sweep (R126) -/

theorem sweepUpdate_eq (p : PulseIx) (s : State) : sweepUpdate p s = { s with cache := (sweepUpdate p s).cache } := by
  unfold sweepUpdate
  split <;> rfl

theorem sweepDue_iff (w : Sweep) : sweepDue w = true ↔ w.divider = 0 ∧ w.enabled = true ∧ w.shift ≠ 0 := by
  simp [sweepDue, and_assoc]

/-- The update, where one is due, is all a sweep's clock does beside the sweep's own fields. -/
theorem clockSweep_eq (p : PulseIx) (s : State) : clockSweep p s =
    { s with
      sweep := s.sweep.set p (sweepClocked (s.sweep.get p))
      cache := if sweepDue (s.sweep.get p) then (sweepUpdate p s).cache else s.cache } := by
  unfold clockSweep
  split
  · rw [sweepUpdate_eq]
  · rfl

/-- Settles O35: the clock is the update where one is due, then the divider and the reload flag. -/
theorem sweepClock : Obligations.SweepClock := by
  intro p s old t
  have ht : t = _ := clockSweep_eq p s
  rw [ht]
  exact ⟨PerPulse.get_set_same .., fun _ other => PerPulse.get_set_other _ _ other,
    if_congr (sweepDue_iff old) rfl rfl, rfl⟩

/-! ### The sweep's calculation (R127, R9) -/

/-- The multiplier of R9 divides by a power of two. -/
theorem sweepMagnitude_eq (w : Sweep) (per : Nat) : sweepMagnitude w per = per / 2 ^ w.shift.toNat := by
  have mult : (Config.sweepMult w.negate w.shift).natAbs = 2 ^ (8 - w.shift.toNat) := by
    rw [← Nat.pow_div (m := 8) (by omega) (by decide), ← Nat.shiftRight_eq_div_pow]
    unfold Config.sweepMult
    split <;> simp only [Int.natAbs_neg, Int.natAbs_natCast]
  have scale : 2 ^ 8 = 2 ^ w.shift.toNat * 2 ^ (8 - w.shift.toNat) := by
    rw [← Nat.pow_add, Nat.add_sub_cancel' (by omega)]
  rw [sweepMagnitude, mult, Nat.shiftRight_eq_div_pow, scale, Nat.mul_div_mul_right _ _ (by positivity)]

section
variable {p : PulseIx} {w : Sweep} {per : BitVec 11}

theorem sweepTarget_guard (h : per.toNat < 8) : sweepTarget p w per = none := by
  simp [sweepTarget, h]

theorem sweepTarget_negate (h : 8 ≤ per.toNat) (negate : w.negate = true) : sweepTarget p w per =
    some (BitVec.ofInt 11 ((per.toNat : Int) - (per.toNat / 2 ^ w.shift.toNat : Nat) - sweepExtra p)) := by
  simp [sweepTarget, Nat.not_lt.mpr h, negate, sweepMagnitude_eq]

theorem sweepTarget_add (h : 8 ≤ per.toNat) (add : w.negate = false)
    (fits : per.toNat + per.toNat / 2 ^ w.shift.toNat ≤ 2047) :
    sweepTarget p w per = some (BitVec.ofNat 11 (per.toNat + per.toNat / 2 ^ w.shift.toNat)) := by
  simp [sweepTarget, Nat.not_lt.mpr h, add, sweepMagnitude_eq, Nat.not_lt.mpr fits]

theorem sweepTarget_discard (add : w.negate = false)
    (tooLong : 2047 < per.toNat + per.toNat / 2 ^ w.shift.toNat) : sweepTarget p w per = none := by
  simp [sweepTarget, add, sweepMagnitude_eq, tooLong]

end

theorem sweepUpdate_none {p : PulseIx} {s : State}
    (h : sweepTarget p (s.sweep.get p) (pulsePeriod (s.cache.get p.chan)) = none) : sweepUpdate p s = s := by
  rw [sweepUpdate, h]

theorem sweepUpdate_some {p : PulseIx} {s : State} {per : BitVec 11}
    (h : sweepTarget p (s.sweep.get p) (pulsePeriod (s.cache.get p.chan)) = some per) :
    sweepUpdate p s = { s with cache := s.cache.set p.chan (setField (s.cache.get p.chan) 4 per) } := by
  rw [sweepUpdate, h]

/-- The period just computed reads back. -/
theorem sweepUpdate_period {p : PulseIx} {s : State} {per : BitVec 11}
    (h : sweepTarget p (s.sweep.get p) (pulsePeriod (s.cache.get p.chan)) = some per) :
    field ((sweepUpdate p s).cache.get p.chan) 4 11 = per := by
  rw [sweepUpdate_some h, PerChan.get_set_same, field_setField_same _ _ _ (by decide)]

/-- An update keeps the nibble below the period, the bit above it, and the other words. -/
theorem sweepUpdate_kept (p : PulseIx) (s : State) :
    field ((sweepUpdate p s).cache.get p.chan) 0 4 = field (s.cache.get p.chan) 0 4 ∧
    ((sweepUpdate p s).cache.get p.chan).getLsbD 15 = (s.cache.get p.chan).getLsbD 15 ∧
    ∀ ch, ch ≠ p.chan → (sweepUpdate p s).cache.get ch = s.cache.get ch := by
  cases h : sweepTarget p (s.sweep.get p) (pulsePeriod (s.cache.get p.chan)) with
  | none => rw [sweepUpdate_none h]; exact ⟨rfl, rfl, fun _ _ => rfl⟩
  | some per =>
    rw [sweepUpdate_some h, PerChan.get_set_same]
    exact ⟨field_setField_disjoint _ _ _ _ _ (by decide) (by decide),
      getLsbD_setField_outside _ _ _ _ (by decide) (by decide), fun _ other => PerChan.get_set_other _ _ other⟩

/-- Settles O36: the target in its four cases, and what an update keeps. -/
theorem sweepUpdateCalculation : Obligations.SweepUpdateCalculation := by
  intro p s w per mag t new
  obtain ⟨volume, top, others⟩ := sweepUpdate_kept p s
  refine ⟨?guard, ?negate, ?add, ?discard, volume, top, others, sweepUpdate_eq p s⟩
  case guard => exact fun low => sweepUpdate_none (sweepTarget_guard low)
  case negate =>
    intro high negate
    have period : field (t.cache.get p.chan) 4 11 = BitVec.ofInt 11 ((per : Int) - mag - sweepExtra p) :=
      sweepUpdate_period (sweepTarget_negate high negate)
    have modulus : (new : Int) = ((per : Int) - mag - sweepExtra p) % 2048 := by
      rw [show new = _ from congrArg BitVec.toNat period, BitVec.toNat_ofInt]
      exact Int.toNat_of_nonneg (Int.emod_nonneg _ (by decide))
    cases p with
    | pulse0 => exact modulus
    | pulse1 => exact modulus
  case add =>
    intro high add fits
    have period : field (t.cache.get p.chan) 4 11 = BitVec.ofNat 11 (per + mag) :=
      sweepUpdate_period (sweepTarget_add high add fits)
    rw [show new = _ from congrArg BitVec.toNat period, BitVec.toNat_ofNat]
    exact Nat.mod_eq_of_lt (Nat.lt_succ_of_le fits)
  case discard => exact fun _ add tooLong => sweepUpdate_none (sweepTarget_discard add tooLong)

end Sys2Proof.Machine
end

section
/-! SUPPORT. A served `WRITE` (R104), and the ports of the pulses (R120 to R128). -/

namespace Sys2Proof.Machine

/-! ### A served `WRITE` (R104) -/

/-- An effect that writes units only disturbs nothing the `Sync` after it reads of the FIFO side. -/
theorem Quiet.of_units {c e : State} (units : withUnits c e = e) : Quiet [] c e :=
  units ▸ ⟨rfl, rfl, rfl, rfl, rfl, rfl, rfl, rfl, (List.append_nil _).symm⟩

/-- A served `WRITE` leaves what its effect leaves but for the FIFO side, and there what the `Sync` leaves. -/
theorem Served.write {i : Instr} {ts : Nat} {s : State} {eff : State → State} {bits : Byte} {pre : List Event}
    (h : Served i s) (hx : exec i s = writeCommand i eff bits s) (hts : i.ts = ts)
    (q : Quiet pre (arrive ts s) (eff (arrive ts s))) :
    ∃ t, exec i s = .next t ∧ t = withFifo (eff (arrive ts s)) t ∧ Synced ts bits pre (arrive ts s) t := by
  subst hts
  have inOrder : (eff (arrive i.ts s)).pendingSample ≤ sampleIndex i.ts (eff (arrive i.ts s)) := by
    rw [q.sampleIndex, q.pendingSample]
    exact h.inOrder
  exact ⟨_, exec_write hx h q, congrArg (stageCtrl bits) (sync_eq_withFifo inOrder), synced_of_quiet q h.inOrder⟩

/-! ### The pulses' commands by their pulse -/

theorem pulseCtrlOf_write (p : PulseIx) (ts v : Nat) (s : State) :
    exec (pulseCtrlOf p ts v) s = writeCommand (pulseCtrlOf p ts v) (pulseCtrl p (dataByte v)) 0 s ∧
      (pulseCtrlOf p ts v).ts = ts := by
  cases p <;> exact ⟨rfl, rfl⟩

theorem pulseSweepOf_write (p : PulseIx) (ts v : Nat) (s : State) :
    exec (pulseSweepOf p ts v) s = writeCommand (pulseSweepOf p ts v) (pulseSweep p (dataByte v)) 0 s ∧
      (pulseSweepOf p ts v).ts = ts := by
  cases p <;> exact ⟨rfl, rfl⟩

theorem pulseLowOf_write (p : PulseIx) (ts v : Nat) (s : State) :
    exec (pulseLowOf p ts v) s = writeCommand (pulseLowOf p ts v) (pulseLow p (dataByte v)) 0 s ∧
      (pulseLowOf p ts v).ts = ts := by
  cases p <;> exact ⟨rfl, rfl⟩

theorem pulseHighOf_write (p : PulseIx) (ts v : Nat) (s : State) :
    exec (pulseHighOf p ts v) s = writeCommand (pulseHighOf p ts v) (pulseHigh p (dataByte v)) (phaseReset p) s ∧
      (pulseHighOf p ts v).ts = ts := by
  cases p <;> exact ⟨rfl, rfl⟩

/-! ### `P<p>_SWEEP` (R124) and `P<p>_LO` (R125) -/

/-- Settles O14: the effect sets one sweep, and the `Sync` after it the FIFO side. -/
theorem pulseSweepWrite : Obligations.PulseSweepWrite := by
  intro p ts v s h c b
  obtain ⟨hx, hts⟩ := pulseSweepOf_write p ts v s
  obtain ⟨t, ht, frame, synced⟩ := h.write hx hts (Quiet.of_units rfl)
  have sweep : t.sweep = c.sweep.set p (sweepWritten b (c.sweep.get p)) := congrArg State.sweep frame
  refine ⟨t, ht, ?_, synced, ?_, fun q other => ?_⟩
  · rw [sweep]
    exact frame
  · rw [sweep]
    exact PerPulse.get_set_same ..
  · rw [sweep, PerPulse.get_set_other _ _ other]

/-- Settles O15: the effect sets eight bits of one word, and the `Sync` after it the FIFO side. -/
theorem pulseLowByteWrite : Obligations.PulseLowByteWrite := by
  intro p ts v s h c
  obtain ⟨hx, hts⟩ := pulseLowOf_write p ts v s
  obtain ⟨t, ht, frame, synced⟩ := h.write hx hts (Quiet.of_units rfl)
  have cache : t.cache = c.cache.set p.chan (setField (c.cache.get p.chan) 4 (dataByte v)) := congrArg State.cache frame
  have word : t.cache.get p.chan = setField (c.cache.get p.chan) 4 (dataByte v) := by rw [cache, PerChan.get_set_same]
  refine ⟨t, ht, ?frame, synced, ?low, ?volume, ?high, fun ch other => ?words⟩
  case frame =>
    rw [cache]
    exact frame
  case low =>
    rw [word, field_setField_same _ _ _ (by decide)]
    rfl
  case volume => rw [word, field_setField_disjoint _ _ _ _ _ (by decide) (by decide)]
  case high => rw [word, field_setField_disjoint _ _ _ _ _ (by decide) (by decide)]
  case words => rw [cache, PerChan.get_set_other _ _ other]

/-! ### `P<p>_HI` (R128) -/

theorem pulseHigh_eq (p : PulseIx) (v : Byte) (s : State) : pulseHigh p v s =
    { s with
      cache := s.cache.set p.chan (setField (s.cache.get p.chan) 12 (periodHigh v))
      length := if s.lenEnable.get p.chan then s.length.set p.chan (lengthEntry s.cfg (lengthIndex v)) else s.length
      env := s.env.set p.env { s.env.get p.env with reload := true } } := by
  unfold pulseHigh armReload loadLength
  split <;> rfl

/-- Settles O16: the effect sets three bits of one word, one length under its enable and one reload flag; the
phase-reset bit is staged after the `Sync`. -/
theorem pulseHighByteWrite : Obligations.PulseHighByteWrite := by
  intro p ts v s h c b
  obtain ⟨hx, hts⟩ := pulseHighOf_write p ts v s
  obtain ⟨t, ht, frame, synced⟩ := h.write hx hts (Quiet.of_units (withUnits_pulseHigh p _ _))
  rw [pulseHigh_eq] at frame
  have cache : t.cache = c.cache.set p.chan (setField (c.cache.get p.chan) 12 (periodHigh b)) :=
    congrArg State.cache frame
  have length : t.length = if c.lenEnable.get p.chan then c.length.set p.chan (lengthEntry c.cfg (lengthIndex b))
      else c.length := congrArg State.length frame
  have env : t.env = c.env.set p.env { c.env.get p.env with reload := true } := congrArg State.env frame
  have word : t.cache.get p.chan = setField (c.cache.get p.chan) 12 (periodHigh b) := by
    rw [cache, PerChan.get_set_same]
  refine ⟨t, ht, ?frame, synced, ?period, ?kept, ?top, fun ch other => ?words, ?length, fun ch other => ?lengths,
    ?envelope, fun e other => ?envelopes⟩
  case frame =>
    rw [cache, length, env]
    exact frame
  case period =>
    rw [word, field_setField_same _ _ _ (by decide)]
    rfl
  case kept => rw [word, field_setField_disjoint _ _ _ _ _ (by decide) (by decide)]
  case top => rw [word, getLsbD_setField_outside _ _ _ _ (by decide) (by decide)]
  case words => rw [cache, PerChan.get_set_other _ _ other]
  case length =>
    rw [length]
    split
    · exact PerChan.get_set_same ..
    · rfl
  case lengths =>
    rw [length]
    split
    · exact PerChan.get_set_other _ _ other
    · rfl
  case envelope => rw [env, PerEnv.get_set_same]
  case envelopes => rw [env, PerEnv.get_set_other _ _ other]

/-! ### `P<p>_CTRL` (R120, R121) -/

/-- The duty bits go into word 3 and the volume nibble into the pulse's own word, whose envelope is written first. -/
theorem pulseCtrl_cache (p : PulseIx) (v : Byte) (s : State) : (pulseCtrl p v s).cache =
    (s.cache.set .noise (setField s.cache.noise (dutyAt p) (ctrlDuty v))).set p.chan
      (setField (s.cache.get p.chan) 0 (volume (envelopeWritten v (s.env.get p.env)))) := by
  cases p <;> rfl

theorem PulseIx.chan_injective {p q : PulseIx} (h : p.chan = q.chan) : p = q := by
  revert h
  cases p <;> cases q <;> decide

theorem PulseIx.chan_ne_tri (p : PulseIx) : p.chan ≠ .tri := by
  cases p <;> decide

theorem PulseIx.chan_ne_noise (p : PulseIx) : p.chan ≠ .noise := by
  cases p <;> decide

/-- Settles O13: the effect sets one envelope's fields, its volume nibble and the two duty bits, and the `Sync` after it
the FIFO side. -/
theorem pulseControlWrite : Obligations.PulseControlWrite := by
  intro p ts v s h c b
  obtain ⟨hx, hts⟩ := pulseCtrlOf_write p ts v s
  obtain ⟨t, ht, frame, synced⟩ := h.write hx hts (Quiet.of_units rfl)
  have env : t.env = c.env.set p.env (envelopeWritten b (c.env.get p.env)) := congrArg State.env frame
  have cache : t.cache = _ := (congrArg State.cache frame).trans (pulseCtrl_cache p b c)
  have word : t.cache.get p.chan = setField (c.cache.get p.chan) 0 (volume (envelopeWritten b (c.env.get p.env))) := by
    rw [cache, PerChan.get_set_same]
  have noise : t.cache.noise = setField c.cache.noise (dutyAt p) (ctrlDuty b) := by
    change t.cache.get .noise = _
    rw [cache, PerChan.get_set_other _ _ p.chan_ne_noise.symm, PerChan.get_set_same]
  have other : ∀ ch, ch ≠ p.chan → ch ≠ .noise → t.cache.get ch = c.cache.get ch := fun ch hp hn => by
    rw [cache, PerChan.get_set_other _ _ hp, PerChan.get_set_other _ _ hn]
  refine ⟨t, ht, ?frame, synced, ?envelope, fun e he => ?envelopes, ?volume, ?bits, fun q hq => ?pulse, ?tri, ?duty0,
    ?duty1, ?below, ?above⟩
  case frame =>
    rw [env, cache, ← pulseCtrl_cache p b c]
    exact frame
  case envelope =>
    rw [env]
    exact PerEnv.get_set_same ..
  case envelopes => rw [env, PerEnv.get_set_other _ _ he]
  case volume =>
    rw [word, field_setField_same _ _ _ (by decide)]
    rfl
  case bits => rw [word, field_setField_disjoint _ _ _ _ _ (by decide) (by decide)]
  case pulse => exact other _ (fun same => hq (PulseIx.chan_injective same)) q.chan_ne_noise
  case tri => exact other .tri p.chan_ne_tri.symm nofun
  case duty0 =>
    rintro rfl
    rw [noise]
    exact ⟨field_setField_same _ _ _ (by decide), field_setField_disjoint _ _ _ _ _ (by decide) (by decide)⟩
  case duty1 =>
    rintro rfl
    rw [noise]
    exact ⟨field_setField_same _ _ _ (by decide), field_setField_disjoint _ _ _ _ _ (by decide) (by decide)⟩
  case below =>
    rw [noise]
    cases p <;> exact field_setField_disjoint _ _ _ _ _ (by decide) (by decide)
  case above =>
    rw [noise]
    cases p <;> exact field_setField_disjoint _ _ _ _ _ (by decide) (by decide)

end Sys2Proof.Machine
end

section
/-! SUPPORT. The triangle's ports, its linear counter, its word and its delay (R140 to R146). -/

namespace Sys2Proof.Machine

/-! ### The triangle's registers and the FIFO side -/

/-- The `Sync` reads none of the triangle's registers: arming or disarming the delay disturbs nothing (R143, R144). -/
theorem Quiet.setTri {pre : List Event} {c e : State} (q : Quiet pre c e) (r : Triangle) :
    Quiet pre c { e with tri := r } :=
  ⟨q.cfg, q.offset, q.fault, q.pending, q.pendingCtrl, q.pendingSample, q.writeCursor, q.slots, q.events⟩

/-! ### `TRI_CTRL` (R140), `TRI_LO` (R141) and `TRI_HI` (R142) -/

/-- Settles O17: the effect sets the control byte, and the `Sync` after it the FIFO side. -/
theorem triangleControlWrite : Obligations.TriangleControlWrite := fun ts v _ h =>
  h.write (eff := triControl (dataByte v)) rfl (ts := ts) rfl (Quiet.of_units rfl)

/-- Settles O18: the effect sets the low eight bits of the period and arms the delay, and the `Sync` after it sets the
FIFO side. -/
theorem triangleLowByteWrite : Obligations.TriangleLowByteWrite := by
  intro ts v s h c
  obtain ⟨t, ht, frame, synced⟩ :=
    h.write (eff := triLow ts (dataByte v)) rfl (ts := ts) rfl ((Quiet.refl c).setTri _)
  have period : t.tri.period = c.tri.period.extractLsb' 8 3 ++ dataByte v := congrArg (·.tri.period) frame
  refine ⟨t, ht, ?frame, synced, ?low, ?high⟩
  case frame =>
    rw [period]
    exact frame
  case low =>
    rw [period]
    exact BitVec.extractLsb'_append_eq_right
  case high =>
    rw [period]
    exact BitVec.extractLsb'_append_eq_left

/-- What `TRI_HI` writes: the load alone is conditional (R142, R169). -/
theorem triHigh_writes (ts : Nat) (v : Byte) (s : State) : triHigh ts v s =
    { s with
      length := if s.lenEnable.get .tri then s.length.set .tri (lengthEntry s.cfg (lengthIndex v)) else s.length
      tri := { s.tri with
        period := periodHigh v ++ s.tri.period.extractLsb' 0 8
        linearReload := true
        updateAt := some (ts + Config.triDelay) } } := by
  unfold triHigh loadLength
  split <;> rfl

/-- Settles O19: the effect sets the high three bits of the period, the length under its enable, the reload flag and the
delay, and the `Sync` after it sets the FIFO side. -/
theorem triangleHighByteWrite : Obligations.TriangleHighByteWrite := by
  intro ts v s h c b
  obtain ⟨t, ht, frame, synced⟩ := h.write (eff := triHigh ts b) rfl (ts := ts) rfl
    ((Quiet.of_units (withUnits_triHighUnits b c)).setTri _)
  rw [triHigh_writes] at frame
  have length : t.length = if c.lenEnable.tri then { c.length with tri := lengthEntry c.cfg (lengthIndex b) }
      else c.length := congrArg State.length frame
  have period : t.tri.period = periodHigh b ++ c.tri.period.extractLsb' 0 8 := congrArg (·.tri.period) frame
  refine ⟨t, ht, ?frame, synced, ?high, ?low, length⟩
  case frame =>
    rw [length, period]
    exact frame
  case high =>
    rw [period]
    exact BitVec.extractLsb'_append_eq_left
  case low =>
    rw [period]
    exact BitVec.extractLsb'_append_eq_right

/-! ### The linear counter (R145) and the triangle's word (R146) -/

/-- Counting down by one and staying at 0 is the subtraction of the naturals. -/
theorem countDown_eq (n : BitVec 7) : (if n ≠ 0 then n - 1 else n) = BitVec.ofNat 7 (n.toNat - 1) := by
  split
  case isTrue => bv_omega
  case isFalse zero =>
    obtain rfl := not_not.mp zero
    rfl

theorem linearClocked_eq (r : Triangle) : linearClocked r = { r with
    linear := if r.linearReload then r.control.extractLsb' 0 7 else BitVec.ofNat 7 (r.linear.toNat - 1)
    linearReload := r.linearReload && r.control.getLsbD 7 } := by
  unfold linearClocked
  rw [countDown_eq]
  congr 1
  unfold triHalt
  cases r.control.getLsbD 7 <;> simp

theorem triWord_sounding {s : State} (length : s.length.tri ≠ 0) (linear : s.tri.linear ≠ 0) :
    triWord s = setField 0 4 s.tri.period :=
  if_pos ⟨length, linear⟩

theorem triWord_silent {s : State} (h : s.length.tri = 0 ∨ s.tri.linear = 0) : triWord s = 0 :=
  if_neg fun ⟨length, linear⟩ => h.elim length linear

/-! ### The delay's expiry (R144) -/

/-- The state an expiry hands to its `Sync`. -/
def triRecomputed (s : State) : State :=
  { s with cache := { s.cache with tri := triWord s }, tri := { s.tri with updateAt := none } }

theorem triExpire_eq (T : Nat) (s : State) : triExpire T s = sync T (triRecomputed s) := rfl

theorem quiet_triRecomputed (s : State) : Quiet [] s (triRecomputed s) :=
  (Quiet.of_units (e := recomputeTri s) rfl).setTri _

/-- Settles O38: the expiry's clauses follow from what its `Sync` leaves alone and from the effect being quiet. -/
theorem linearCounterAndTriangleWord : Obligations.LinearCounterAndTriangleWord := by
  intro T s
  refine ⟨?clock, fun length linear => ?sounding, triWord_silent, ?cache, ?tri, fun inOrder => ⟨?synced, ?frame⟩⟩
  case clock => rw [clockLinear, linearClocked_eq]
  case sounding =>
    refine ⟨?_, (wordOk_tri_iff _).mp (wordOk_triWord s)⟩
    rw [triWord_sounding length linear, field_setField_same _ _ _ (by decide)]
  case cache => exact sync_cache T (triRecomputed s)
  case tri => exact sync_tri T (triRecomputed s)
  case synced =>
    have := synced_of_quiet (ts := T) (bits := 0) (quiet_triRecomputed s) inOrder
    rwa [stageCtrl_zero] at this
  case frame => exact sync_eq_withFifo (s := triRecomputed s) inOrder

end Sys2Proof.Machine
end

section
/-! SUPPORT. The noise ports (R155 to R157). -/

namespace Sys2Proof.Machine

/-- Settles O20: the effect sets the envelope's three fields and its volume nibble, and the `Sync` after it the FIFO
side. -/
theorem noiseControlWrite : Obligations.NoiseControlWrite := by
  intro ts v s h c b
  obtain ⟨t, ht, frame, synced⟩ := h.write (eff := noiseCtrl b) rfl (ts := ts) rfl (Quiet.of_units rfl)
  have word : t.cache.noise = setField c.cache.noise 0 (volume (envelopeWritten b c.env.noise)) :=
    congrArg (·.cache.noise) frame
  refine ⟨t, ht, ?frame, synced, ?volume, ?kept⟩
  case frame =>
    rw [word]
    exact frame
  case volume =>
    rw [word, field_setField_same _ _ _ (by decide)]
    rfl
  case kept => rw [word, field_setField_disjoint _ _ _ _ _ (by decide) (by decide)]

/-- Settles O21: the effect steps the generator and sets the mode bit and the frequency, two fields of one word, and the
`Sync` after it sets the FIFO side. -/
theorem noiseModeWriteCompletes : Obligations.NoiseModeWrite := by
  intro ts v s h c b
  obtain ⟨t, ht, frame, synced⟩ := h.write (eff := noiseModeWrite b) rfl (ts := ts) rfl (Quiet.of_units rfl)
  have noise : t.noise = noiseStepped c.cfg c.noise (noiseMode b) := congrArg State.noise frame
  have word : t.cache.noise = setField (setField c.cache.noise 8 (bit (noiseMode b))) 4 (noiseFrequency b) :=
    congrArg (·.cache.noise) frame
  refine ⟨t, ht, ?frame, synced, ?mode, ?generator, ?modeBit, ?frequency, ?below, ?above⟩
  case frame =>
    rw [noise, word]
    exact frame
  case mode => exact congrArg Noise.mode noise
  case generator => exact congrArg Noise.prng noise
  case modeBit =>
    rw [word, getLsbD_setField_outside _ _ _ _ (by decide) (by decide), getLsbD_setField _ _ _ _ (by decide)]
    simp [bit, noiseMode]
  case frequency =>
    rw [word, field_setField_same _ _ _ (by decide)]
    rfl
  case below =>
    rw [word, field_setField_disjoint _ _ _ _ _ (by decide) (by decide),
      field_setField_disjoint _ _ _ _ _ (by decide) (by decide)]
  case above =>
    rw [word, field_setField_disjoint _ _ _ _ _ (by decide) (by decide),
      field_setField_disjoint _ _ _ _ _ (by decide) (by decide)]

/-- What `NOI_LEN` writes: the load alone is conditional (R157, R169). -/
theorem noiseLength_writes (v : Byte) (s : State) : noiseLength v s =
    { s with
      length := if s.lenEnable.get .noise then s.length.set .noise (lengthEntry s.cfg (lengthIndex v)) else s.length
      env := s.env.set .noise { s.env.noise with reload := true } } := by
  unfold noiseLength loadLength
  split <;> rfl

/-- Settles O22: the effect sets the length under its enable and the reload flag, and the `Sync` after it the FIFO
side. -/
theorem noiseLengthWrite : Obligations.NoiseLengthWrite := by
  intro ts v s h c
  obtain ⟨t, ht, frame, synced⟩ := h.write (eff := noiseLength (dataByte v)) rfl (ts := ts) rfl
    (Quiet.of_units (withUnits_noiseLength _ _))
  rw [noiseLength_writes] at frame
  exact ⟨t, ht, frame, synced⟩

end Sys2Proof.Machine
end

section
/-! SUPPORT. Nothing but the noise generator's own value depends on it (R158): each piece of a step is blind to it. -/

namespace Sys2Proof.Machine

/-! ### Operations that do not look at the generator -/

/-- From two states that differ in the generator's value only, `f` leaves two such states. -/
def PrngBlind (f : State → State) : Prop := ∀ x s, ∃ y, f (withPrng x s) = withPrng y (f s)

/-- An operation that hands the generator on as it finds it. -/
theorem PrngBlind.of_keeps {f : State → State} (h : ∀ x s, f (withPrng x s) = withPrng x (f s)) : PrngBlind f :=
  fun x s => ⟨x, h x s⟩

theorem prngBlind_id : PrngBlind fun s => s := .of_keeps fun _ _ => rfl

theorem PrngBlind.followedBy {f k : State → State} (hf : PrngBlind f) (hk : PrngBlind k) :
    PrngBlind fun s => k (f s) := fun x s => by
  obtain ⟨y, e⟩ := hf x s
  simp only [e]
  exact hk y (f s)

theorem PrngBlind.ite {c : State → Prop} [DecidablePred c] {f g : State → State}
    (hc : ∀ x s, c (withPrng x s) ↔ c s) (hf : PrngBlind f) (hg : PrngBlind g) :
    PrngBlind fun s => if c s then f s else g s := fun x s => by
  simp only [hc]
  split
  · exact hf x s
  · exact hg x s

/-- Whether a fault stands in the way does not depend on the generator. -/
theorem PrngBlind.andThen {f k : State → State} (hf : PrngBlind f) (hk : PrngBlind k) :
    PrngBlind fun s => Machine.andThen (f s) k := by
  refine hf.followedBy (k := fun s => Machine.andThen s k) fun x s => ?_
  dsimp only
  have sameFault : (withPrng x s).fault = s.fault := rfl
  rcases andThen_cases s k with ⟨hs, e⟩ | ⟨hs, e⟩
  · rw [e, andThen_ok (sameFault.trans hs)]
    exact hk x s
  · rw [e, andThen_fault (sameFault ▸ hs)]
    exact ⟨x, rfl⟩

/-! ### The `Sync` and the scheduled events -/

theorem sync_blind (T : Nat) : PrngBlind (sync T) :=
  .ite (c := fun s => sampleIndex T s < s.pendingSample) (fun _ _ => .rfl) (.of_keeps fun _ _ => rfl)
    (.ite (c := fun s => sampleIndex T s ≠ s.pendingSample) (fun _ _ => .rfl) (.of_keeps fun _ _ => rfl)
      (.of_keeps fun _ _ => rfl))

theorem sweepUpdate_blind (p : PulseIx) : PrngBlind (sweepUpdate p) := .of_keeps fun x s => by
  cases h : sweepTarget p (s.sweep.get p) (pulsePeriod (s.cache.get p.chan)) with
  | none => rw [sweepUpdate_none h, sweepUpdate_none (s := withPrng x s) h]
  | some per => rw [sweepUpdate_some h, sweepUpdate_some (s := withPrng x s) h]; rfl

theorem clockSweep_blind (p : PulseIx) : PrngBlind (clockSweep p) :=
  have updated := PrngBlind.ite (c := fun s => sweepDue (s.sweep.get p)) (fun _ _ => .rfl) (sweepUpdate_blind p)
    prngBlind_id
  updated.followedBy
    (.of_keeps (f := fun s => { s with sweep := s.sweep.set p (sweepClocked (s.sweep.get p)) }) fun _ _ => rfl)

theorem clockHalfStep_blind (entry : BitVec 2) : PrngBlind (clockHalfStep entry) :=
  have lengths := PrngBlind.of_keeps (f := clockLengths) fun _ _ => rfl
  .ite (c := fun _ => entry.getLsbD 0 = false) (fun _ _ => .rfl)
    ((lengths.followedBy (clockSweep_blind .pulse0)).followedBy (clockSweep_blind .pulse1)) prngBlind_id

theorem frameFlag_blind (entry : BitVec 2) : PrngBlind (frameFlag entry) :=
  .ite (c := fun s => s.seq.mode = .fourStep ∧ entry = 3 ∧ s.seq.irqInhibit = false) (fun _ _ => .rfl)
    (.of_keeps fun _ _ => rfl) prngBlind_id

theorem clockUnits_blind : PrngBlind clockUnits := fun x s =>
  have quarterStep := PrngBlind.of_keeps (f := fun s => clockLinear (clockEnvelopes s)) fun _ _ => rfl
  have flagged := (quarterStep.followedBy (clockHalfStep_blind s.seq.step)).followedBy (frameFlag_blind s.seq.step)
  flagged.followedBy (k := advanceStep s.seq.step) (.of_keeps fun _ _ => rfl) x s

/-- The request of R183 compares registers of the units, none of them the generator. -/
theorem tick_blind (T : Nat) : PrngBlind (tick T) := fun x s => by
  obtain ⟨y, units⟩ := clockUnits_blind x s
  have entered : tick T (withPrng x s) = sync T (if recomputeRequested s (clockUnits s)
      then recomputeTri (withPrng y (clockUnits s)) else withPrng y (clockUnits s)) := by
    rw [tick, units]
    rfl
  rw [entered]
  have recomputed := PrngBlind.ite (c := fun _ => recomputeRequested s (clockUnits s)) (f := recomputeTri)
    (fun _ _ => .rfl) (.of_keeps fun _ _ => rfl) prngBlind_id
  exact recomputed.followedBy (sync_blind T) y (clockUnits s)

theorem dmcTick_blind (T : Nat) : PrngBlind (dmcTick T) :=
  .ite (c := fun s => s.dmc.bitsRem ≠ 0) (fun _ _ => .rfl) (.of_keeps fun _ _ => rfl)
    (.ite (c := fun s => s.dmc.bytesRem ≠ 0) (fun _ _ => .rfl) (.of_keeps fun _ _ => rfl)
      (.ite (c := fun s => s.dmc.loop) (fun _ _ => .rfl) (.of_keeps fun _ _ => rfl) (.of_keeps fun _ _ => rfl)))

theorem runDue_blind (T : Nat) : ∀ who, PrngBlind (runDue T who)
  | .seqTick => (tick_blind T).andThen (.of_keeps fun _ _ => rfl)
  | .triExpiry => (PrngBlind.of_keeps (f := triRecomputed) fun _ _ => rfl).followedBy (sync_blind T)
  | .dmcTick => dmcTick_blind T

/-! ### The opening of a command (R100, R103) -/

theorem catchUpLoop_blind (ts : Nat) : ∀ fuel, PrngBlind (catchUpLoop ts fuel)
  | 0 => prngBlind_id
  | fuel + 1 => fun x s => by
    have sameEvent : nextDue ts (withPrng x s) = nextDue ts s := rfl
    rw [catchUpLoop, catchUpLoop, sameEvent]
    cases nextDue ts s with
    | none => exact ⟨x, rfl⟩
    | some event => exact (runDue_blind event.1 event.2).andThen (catchUpLoop_blind ts fuel) x s

theorem arrive_blind (ts : Nat) : PrngBlind (arrive ts) := by
  have check : PrngBlind (checkTime ts) :=
    .ite (c := fun s => ts < s.lastTs) (fun _ _ => .rfl) (.of_keeps fun _ _ => rfl) (.of_keeps fun _ _ => rfl)
  have caughtUp : PrngBlind (catchUp ts) := fun x s => catchUpLoop_blind ts (catchUpFuel ts s) x s
  exact (prngBlind_id.andThen check).andThen caughtUp

/-! ### The effects of the ports (R104) -/

theorem loadLength_blind (ch : Chan) (v : Byte) : PrngBlind (loadLength ch v) :=
  .ite (c := fun s => s.lenEnable.get ch) (fun _ _ => .rfl) (.of_keeps fun _ _ => rfl) prngBlind_id

theorem pulseHigh_blind (p : PulseIx) (v : Byte) : PrngBlind (pulseHigh p v) := .of_keeps fun x s => by
  rw [pulseHigh_eq, pulseHigh_eq]
  rfl

theorem seqControl_blind (ts : Nat) (v : Byte) : PrngBlind (seqControl ts v) :=
  have configured := PrngBlind.of_keeps (f := seqConfigure v) fun _ _ => rfl
  have ticked := PrngBlind.ite (c := fun _ => seqModeBit v) (fun _ _ => .rfl) (tick_blind ts) prngBlind_id
  (configured.followedBy ticked).andThen (.of_keeps fun _ _ => rfl)

theorem dmcEnableWrite_blind (b : Bool) (ts : Nat) : PrngBlind (dmcEnableWrite b ts) :=
  .ite (c := fun _ => b) (fun _ _ => .rfl)
    (.ite (c := fun s => s.dmc.bytesRem = 0) (fun _ _ => .rfl) (.of_keeps fun _ _ => rfl) prngBlind_id)
    (.of_keeps fun _ _ => rfl)

theorem channelEnable_blind (ts : Nat) (v : Byte) : PrngBlind (channelEnable ts v) := by
  have channel : ∀ ch, PrngBlind (enableChannel ch v) := fun ch => .of_keeps fun _ _ => rfl
  have delay : PrngBlind (enableTriDelay ts v) :=
    .ite (c := fun _ => enableBit v .tri) (fun _ _ => .rfl) prngBlind_id (.of_keeps fun _ _ => rfl)
  have upToTri := ((channel .pulse0).followedBy (channel .pulse1)).followedBy (channel .tri)
  exact ((upToTri.followedBy delay).followedBy (channel .noise)).followedBy (dmcEnableWrite_blind _ ts)

/-- `NOI_MODE` alone reads the generator, and what it reads it puts back into the generator only. -/
theorem portEffect_blind (i : Instr) : PrngBlind (portEffect i) := by
  cases i with
  | noiMode ts v =>
    exact fun x s => ⟨(noiseStepped s.cfg { s.noise with prng := x } (noiseMode (dataByte v))).prng, rfl⟩
  | p0Hi ts v | p1Hi ts v => exact pulseHigh_blind _ _
  | noiLen ts v => exact (loadLength_blind .noise _).followedBy (k := armReload .noise) (.of_keeps fun _ _ => rfl)
  | triHi ts v => exact .of_keeps fun x s => by simp only [portEffect, triHigh_writes]; rfl
  | chEnable ts v => exact channelEnable_blind ts _
  | seqCtrl ts v => exact seqControl_blind ts _
  | _ => exact .of_keeps fun _ _ => rfl

/-! ### One step -/

theorem passWait_blind (ts : Nat) : PrngBlind (passWait ts) :=
  .ite (c := fun s => lead s ≤ s.cfg.leadSlots) (fun _ _ => .rfl) (.of_keeps fun _ _ => rfl) prngBlind_id

theorem consumerAdvance_blind : PrngBlind consumerAdvance :=
  .ite (c := fun s => s.readPos ≠ s.writeCursor) (fun _ _ => .rfl) (.of_keeps fun _ _ => rfl) prngBlind_id

theorem commandBody_blind (i : Instr) : PrngBlind (commandBody i) := by
  have synced (ts : Nat) := (arrive_blind ts).andThen (sync_blind ts)
  cases i with
  | rdStatus ts => exact (arrive_blind ts).andThen (.of_keeps fun _ _ => rfl)
  | force ts => exact synced ts
  | eof ts =>
    have held := PrngBlind.of_keeps (f := fun s => { s with eofWait := some ts }) fun _ _ => rfl
    exact (synced ts).andThen (held.followedBy (passWait_blind ts))
  | _ =>
    exact (((arrive_blind _).andThen (portEffect_blind _)).andThen (sync_blind _)).andThen (.of_keeps fun _ _ => rfl)

/-- Settles O60: whose turn it is, what the engine finds and whether a command is in range do not look at the generator,
and what the turn then does is blind to it. -/
theorem nothingDependsOnTheNoiseGenerator : Obligations.NothingDependsOnTheNoiseGenerator := by
  intro s x
  by_cases turn : s.turns.head? = some .consumer
  case pos =>
    obtain ⟨rest, ht⟩ := List.head?_eq_some_iff.mp turn
    obtain ⟨y, e⟩ := consumerAdvance_blind x { s with turns := rest }
    rw [step_consumer ht]
    exact ⟨y, (step_consumer (s := withPrng x s) ht).trans (congrArg _ e)⟩
  case neg =>
    cases hf : s.fault with
    | some f =>
      rw [step_faulted turn hf]
      exact step_faulted (s := withPrng x s) turn hf
    | none =>
    cases he : s.eofWait with
    | some ts =>
      obtain ⟨y, e⟩ := passWait_blind ts x { s with turns := s.turns.tail }
      rw [step_held turn hf he]
      exact ⟨y, (step_held (s := withPrng x s) turn hf he).trans (congrArg _ e)⟩
    | none =>
    cases hc : s.cmds with
    | nil =>
      rw [step_idle turn ⟨hc, he, hf⟩]
      exact ⟨x, step_idle (s := withPrng x s) turn ⟨hc, he, hf⟩⟩
    | cons w rest =>
    cases hd : decode w with
    | error why =>
      rw [step_invalidWord turn hf he hc hd]
      exact step_invalidWord (s := withPrng x s) turn hf he hc hd
    | ok i =>
      have other := step_command (s := withPrng x s) turn hf he hc hd
      rw [step_command turn hf he hc hd]
      rcases exec_cases i { s with turns := s.turns.tail, cmds := rest } with ⟨wf, e⟩ | ⟨bad, e⟩ <;> rw [e]
      · obtain ⟨y, same⟩ := commandBody_blind i x { s with turns := s.turns.tail, cmds := rest }
        exact ⟨y, other.trans ((exec_of_wf wf _).trans (congrArg _ same))⟩
      · exact other.trans ((outOfRangeOperandsAreRefused i _).2 bad)

end Sys2Proof.Machine
end

section
/-! SUPPORT. A length counter's clock and its halts (R165, R166), and the shared enable register (R168, R205, R206). -/

namespace Sys2Proof.Machine

/-! ### One clock of a length counter (R165) -/

theorem lengthClocked_halted (n : BitVec 8) : lengthClocked true n = n := rfl

/-- Counting down by one and staying at 0 is the subtraction of the naturals. -/
theorem lengthClocked_counting (n : BitVec 8) : lengthClocked false n = BitVec.ofNat 8 (n.toNat - 1) := by
  by_cases spent : n = 0
  case pos =>
    subst spent
    rfl
  case neg =>
    have falls : lengthClocked false n = n - 1 := if_pos (bne_iff_ne.mpr spent)
    rw [falls]
    bv_omega

theorem clockLength_counter (ch : Chan) (s : State) :
    (clockLength ch s).length.get ch = lengthClocked (halted ch s) (s.length.get ch) :=
  PerChan.get_set_same ..

/-- Setting what is there already changes nothing. -/
theorem PerChan.set_get {α : Type} (x : PerChan α) (ch : Chan) : x.set ch (x.get ch) = x := by
  cases ch <;> rfl

theorem clockLength_of_halted {ch : Chan} {s : State} (h : halted ch s = true) : clockLength ch s = s := by
  rw [clockLength, h, lengthClocked_halted, PerChan.set_get]

/-! ### The counter's run (R165, R166) -/

/-- No halt depends on a length counter (R166). -/
theorem halted_clockLength (ch clocked : Chan) (s : State) : halted ch (clockLength clocked s) = halted ch s := by
  cases ch <;> rfl

/-- `k` clocks of a counter that is not halted take `k` from it, down to 0. -/
theorem iterate_clockLength {ch : Chan} (k : Nat) {s : State} (counting : halted ch s = false) :
    ((clockLength ch)^[k] s).length.get ch = BitVec.ofNat 8 ((s.length.get ch).toNat - k) := by
  induction k generalizing s with
  | zero => simp
  | succ k ih =>
    have first : ((clockLength ch s).length.get ch).toNat = (s.length.get ch).toNat - 1 := by
      rw [clockLength_counter, counting, lengthClocked_counting, BitVec.toNat_ofNat]
      exact Nat.mod_eq_of_lt ((Nat.sub_le _ _).trans_lt (BitVec.isLt _))
    rw [Function.iterate_succ_apply, ih ((halted_clockLength ch ch s).trans counting), first, Nat.sub_sub,
      Nat.add_comm 1 k]

/-- Settles O37: a halted counter keeps its value, and the run of one that counts is by induction on the clocks. -/
theorem lengthClock : Obligations.LengthClock := fun _ _ =>
  ⟨⟨rfl, rfl, rfl, rfl⟩, clockLength_of_halted, fun counting k => iterate_clockLength k counting,
    fun _ other => PerChan.get_set_other _ _ other, rfl⟩

/-! ### The parts of `CH_ENABLE` (R168) -/

/-- A disabled channel's counter is forced to zero, an enabled one's kept. -/
theorem enableChannel_writes (ch : Chan) (v : Byte) (s : State) : enableChannel ch v s =
    { s with
      lenEnable := s.lenEnable.set ch (enableBit v ch)
      length := s.length.set ch (if enableBit v ch then s.length.get ch else 0) } := by
  unfold enableChannel
  split
  · rw [PerChan.set_get]
  · rfl

theorem enableTriDelay_writes (ts : Nat) (v : Byte) (s : State) : enableTriDelay ts v s =
    { s with tri := { s.tri with
        updateAt := if enableBit v .tri then s.tri.updateAt else some (ts + Config.triDelay) } } := by
  unfold enableTriDelay
  split <;> rfl

/-- The state `CH_ENABLE` hands to the player. -/
def lengthsEnabled (ts : Nat) (v : Byte) (s : State) : State :=
  { s with
    lenEnable := ⟨v.getLsbD 0, v.getLsbD 1, v.getLsbD 2, v.getLsbD 3⟩
    length := ⟨if v.getLsbD 0 then s.length.pulse0 else 0, if v.getLsbD 1 then s.length.pulse1 else 0,
      if v.getLsbD 2 then s.length.tri else 0, if v.getLsbD 3 then s.length.noise else 0⟩
    tri := { s.tri with updateAt := if v.getLsbD 2 then s.tri.updateAt else some (ts + 100) } }

theorem channelEnable_eq (ts : Nat) (v : Byte) (s : State) :
    channelEnable ts v s = dmcEnableWrite (enableDmc v) ts (lengthsEnabled ts v s) := by
  rw [channelEnable]
  simp only [enableChannel_writes, enableTriDelay_writes]
  rfl

/-! ### The player's enable bit (R205, R206) -/

/-- An idle player is restarted; its next tick, where it has none, is one period from the write. -/
theorem dmcEnableWrite_idle {s : State} (idle : s.dmc.bytesRem = 0) (ts : Nat) : (dmcEnableWrite true ts s).dmc =
    { s.dmc with
      cursor := BitVec.ofNat 16 (s.cfg.dmcBase + s.dmc.start.toNat * 64)
      bytesRem := s.dmc.len.toNat * 16 + 1
      active := true
      nextCommit := some (s.dmc.nextCommit.getD (ts + s.dmc.period)) } := by
  have activated : dmcEnableWrite true ts s = dmcActivate ts s := if_pos idle
  rw [activated, dmcActivate, dmcRestart, Nat.shiftLeft_eq, Nat.shiftLeft_eq]
  cases s.dmc.nextCommit <;> rfl

theorem dmcEnableWrite_playing {s : State} (playing : s.dmc.bytesRem ≠ 0) (ts : Nat) :
    (dmcEnableWrite true ts s).dmc = s.dmc := by
  have kept : dmcEnableWrite true ts s = s := if_neg playing
  rw [kept]

theorem dmcEnableWrite_stopped (ts : Nat) (s : State) : (dmcEnableWrite false ts s).dmc =
    { s.dmc with bytesRem := 0, bitsRem := 0, active := false, nextCommit := none } := rfl

/-! ### `CH_ENABLE` completes -/

/-- The `Sync` reads none of the player's registers. -/
theorem Quiet.setDmc {pre : List Event} {c e : State} (q : Quiet pre c e) (d : Dmc) : Quiet pre c { e with dmc := d } :=
  ⟨q.cfg, q.offset, q.fault, q.pending, q.pendingCtrl, q.pendingSample, q.writeCursor, q.slots, q.events⟩

theorem quiet_channelEnable (ts : Nat) (v : Byte) (s : State) : Quiet [] s (channelEnable ts v s) := by
  rw [channelEnable_eq, dmcEnableWrite_eq]
  exact ((Quiet.of_units (e := { s with
    lenEnable := (lengthsEnabled ts v s).lenEnable
    length := (lengthsEnabled ts v s).length }) rfl).setTri _).setDmc _

/-- Settles O26: the effect sets the enables, the counters and the triangle's delay, then the player by the three cases
of its own enable bit; the `Sync` after it sets the FIFO side. -/
theorem channelEnableWrite : Obligations.ChannelEnableWrite := by
  intro ts v s h c b
  obtain ⟨t, ht, frame, synced⟩ :=
    h.write (eff := channelEnable ts b) rfl (ts := ts) rfl (quiet_channelEnable ts b c)
  rw [channelEnable_eq] at frame
  have dmc : t.dmc = (dmcEnableWrite (b.getLsbD 4) ts (lengthsEnabled ts b c)).dmc :=
    (congrArg State.dmc frame :)
  refine ⟨t, ht, ?frame, synced, fun enabled idle => ?started, fun enabled playing => ?kept, fun disabled => ?stopped⟩
  case frame =>
    rw [dmcEnableWrite_eq] at frame
    rw [dmc]
    exact frame
  case started =>
    rw [dmc, enabled]
    exact dmcEnableWrite_idle (s := lengthsEnabled ts b c) idle ts
  case kept =>
    rw [dmc, enabled]
    exact dmcEnableWrite_playing (s := lengthsEnabled ts b c) playing ts
  case stopped =>
    rw [dmc, disabled]
    exact dmcEnableWrite_stopped ts (lengthsEnabled ts b c)

end Sys2Proof.Machine
end

section
/-! SUPPORT. The frame sequencer: the schedule and the divider's reset (R181, R182), the tick (R183, R184), and the
sequencer-control register (R185). -/

namespace Sys2Proof.Machine

/-! ### The schedule and the divider's reset (R181, R182, R185) -/

theorem stepLength_floor {q : Sequencer} (h : q.half = false) : stepLength q = q.stepP2 / 2 := by
  rw [stepLength_eq, h]
  rfl

theorem stepLength_ceil {q : Sequencer} (h : q.half = true) : stepLength q = (q.stepP2 + 1) / 2 := by
  rw [stepLength_eq, h]
  rfl

/-- Whichever rounding comes first, the two steps sum to `step_p2`. -/
theorem stepLength_add_toggled (q : Sequencer) (t : Nat) :
    stepLength q + stepLength { q with nextTick := t, half := !q.half } = q.stepP2 := by
  rw [stepLength_eq, stepLength_eq]
  cases q.half with
  | false => exact (by omega : (q.stepP2 + 0) / 2 + (q.stepP2 + 1) / 2 = q.stepP2)
  | true => exact (by omega : (q.stepP2 + 1) / 2 + (q.stepP2 + 0) / 2 = q.stepP2)

theorem scheduleTick_twice (T : Nat) (s : State) :
    scheduleTick (scheduleTick T s).seq.nextTick (scheduleTick T s) =
      { s with seq := { s.seq with nextTick := T + s.seq.stepP2 } } := by
  have sum := stepLength_add_toggled s.seq (T + stepLength s.seq)
  simp only [scheduleTick, Bool.not_not, Nat.add_assoc] at sum ⊢
  rw [sum]

theorem seqRestart_eq (T : Nat) (s : State) : seqRestart T s =
    { s with seq := { s.seq with nextTick := T + s.seq.stepP2 / 2, half := true } } := by
  rw [seqRestart, scheduleTick, stepLength_floor rfl]
  rfl

/-- Settles O40: the step's length by `half`, the sum of the two roundings, and the reset's floor. -/
theorem successiveStepsSumToStepP2 : Obligations.SuccessiveStepsSumToStepP2 := fun T s =>
  ⟨fun h => congrArg (T + ·) (stepLength_floor h), fun h => congrArg (T + ·) (stepLength_ceil h), rfl,
    scheduleTick_twice T s, seqRestart_eq T s⟩

/-! ### What a tick clocks (R183) -/

theorem envelopeClocked_loop (e : Envelope) : (envelopeClocked e).loop = e.loop := by
  obtain ⟨-, -, loop⟩ := envelopeClocked_kept e
  exact loop

/-- No halt depends on what the clock of an envelope or of the linear counter writes (R166). -/
theorem halted_quarterStep (ch : Chan) (s : State) : halted ch (clockLinear (clockEnvelopes s)) = halted ch s := by
  cases ch with
  | pulse0 => exact envelopeClocked_loop s.env.pulse0
  | pulse1 => exact envelopeClocked_loop s.env.pulse1
  | tri => rfl
  | noise => exact envelopeClocked_loop s.env.noise

/-- The four clocks read and write a counter each (R183). -/
theorem clockLengths_counter (ch : Chan) (s : State) :
    (clockLengths s).length.get ch = lengthClocked (halted ch s) (s.length.get ch) := by
  cases ch <;> rfl

theorem clockHalfStep_even {entry : BitVec 2} (even : entry.getLsbD 0 = false) (s : State) :
    clockHalfStep entry s = clockSweeps (clockLengths s) := if_pos even

theorem clockHalfStep_odd {entry : BitVec 2} (odd : entry.getLsbD 0 = true) (s : State) : clockHalfStep entry s = s :=
  if_neg (Bool.not_eq_false _ ▸ odd)

theorem clockUnits_length (s : State) :
    (clockUnits s).length = (clockHalfStep s.seq.step (clockLinear (clockEnvelopes s))).length := by
  simp only [clockUnits, advanceStep_length, frameFlag_length]

theorem clockUnits_tri (s : State) : (clockUnits s).tri = linearClocked s.tri := by
  simp only [clockUnits, advanceStep_tri, frameFlag_tri, clockHalfStep_tri, clockLinear, clockEnvelopes_tri]

theorem clockUnits_length_even {s : State} (even : s.seq.step.getLsbD 0 = false) (ch : Chan) :
    (clockUnits s).length.get ch = lengthClocked (halted ch s) (s.length.get ch) := by
  rw [clockUnits_length, clockHalfStep_even even, clockSweeps_length, clockLengths_counter, halted_quarterStep]
  rfl

theorem clockUnits_length_odd {s : State} (odd : s.seq.step.getLsbD 0 = true) : (clockUnits s).length = s.length := by
  rw [clockUnits_length, clockHalfStep_odd odd, clockLinear_length, clockEnvelopes_length]

/-! ### The Cache words of a tick (R122, R126, R183) -/

theorem clockUnits_cache (s : State) :
    (clockUnits s).cache = (clockHalfStep s.seq.step (clockLinear (clockEnvelopes s))).cache := by
  simp only [clockUnits, advanceStep_cache, frameFlag_cache]

/-- The three envelopes write a word each. -/
theorem clockEnvelopes_word (e : EnvIx) (s : State) :
    (clockEnvelopes s).cache.get e.chan = (clockEnvelope e s).cache.get e.chan := by
  cases e <;> rfl

/-- The two sweeps write a word each. -/
theorem clockSweeps_word (p : PulseIx) (s : State) :
    (clockSweeps s).cache.get p.chan = (clockSweep p s).cache.get p.chan := by
  cases p with
  | pulse0 => exact clockSweep_cache_other .pulse1 _ _ (by decide)
  | pulse1 =>
    exact clockSweep_cache_congr (by rw [clockSweep_sweep]; rfl) (clockSweep_cache_other .pulse0 _ _ (by decide))

theorem clockSweeps_word_other {ch : Chan} (h : ∀ p : PulseIx, ch ≠ p.chan) (s : State) :
    (clockSweeps s).cache.get ch = s.cache.get ch := by
  rw [clockSweeps, clockSweep_cache_other _ _ _ (h .pulse1), clockSweep_cache_other _ _ _ (h .pulse0)]

theorem clockHalfStep_word_other {ch : Chan} (h : ∀ p : PulseIx, ch ≠ p.chan) (entry : BitVec 2) (s : State) :
    (clockHalfStep entry s).cache.get ch = s.cache.get ch := by
  unfold clockHalfStep
  split
  · exact clockSweeps_word_other h _
  · rfl

/-- A sweep's clock keeps the volume nibble of every word (R122, R127). -/
theorem clockSweep_volume (p : PulseIx) (s : State) (ch : Chan) :
    field ((clockSweep p s).cache.get ch) 0 4 = field (s.cache.get ch) 0 4 := by
  rw [clockSweep_eq]
  dsimp only
  split
  · obtain ⟨volume, -, others⟩ := sweepUpdate_kept p s
    by_cases own : ch = p.chan
    · rw [own, volume]
    · rw [others ch own]
  · rfl

theorem clockHalfStep_volume (entry : BitVec 2) (s : State) (ch : Chan) :
    field ((clockHalfStep entry s).cache.get ch) 0 4 = field (s.cache.get ch) 0 4 := by
  unfold clockHalfStep
  split
  · rw [clockSweeps, clockSweep_volume, clockSweep_volume, clockLengths_cache]
  · rfl

theorem clockUnits_volume (e : EnvIx) (s : State) :
    field ((clockUnits s).cache.get e.chan) 0 4 = volume ((clockUnits s).env.get e) := by
  rw [clockUnits_cache, clockHalfStep_volume, clockLinear_cache, clockEnvelopes_word, clockEnvelope_word,
    field_setField_same _ _ _ (by decide), clockUnits_env]
  exact congrArg volume (PerEnv.get_set_same ..)

/-- An envelope's clock writes the volume nibble only (R122). -/
theorem clockEnvelope_kept (e : EnvIx) (s : State) :
    field ((clockEnvelope e s).cache.get e.chan) 4 12 = field (s.cache.get e.chan) 4 12 := by
  rw [clockEnvelope_word, field_setField_disjoint _ _ _ _ _ (by decide) (by decide)]

theorem clockUnits_word_even {s : State} (even : s.seq.step.getLsbD 0 = false) (p : PulseIx) :
    (clockUnits s).cache.get p.chan = (clockSweep p (clockEnvelope p.env s)).cache.get p.chan := by
  rw [clockUnits_cache, clockHalfStep_even even, clockSweeps_word]
  refine clockSweep_cache_congr rfl ?_
  cases p <;> rfl

theorem clockUnits_word_odd {s : State} (odd : s.seq.step.getLsbD 0 = true) (p : PulseIx) :
    field ((clockUnits s).cache.get p.chan) 4 12 = field (s.cache.get p.chan) 4 12 := by
  rw [clockUnits_cache, clockHalfStep_odd odd, clockLinear_cache]
  cases p with
  | pulse0 => exact clockEnvelope_kept .pulse0 s
  | pulse1 => exact clockEnvelope_kept .pulse1 s

theorem clockUnits_noiseWord (s : State) : field (clockUnits s).cache.noise 4 12 = field s.cache.noise 4 12 := by
  have word : (clockUnits s).cache.get .noise = (clockEnvelope .noise s).cache.get .noise := by
    rw [clockUnits_cache, clockHalfStep_word_other (fun p => by cases p <;> decide)]
    rfl
  exact (congrArg (field · 4 12) word).trans (clockEnvelope_kept .noise s)

theorem clockUnits_triWord (s : State) : (clockUnits s).cache.tri = s.cache.tri := by
  have word : (clockUnits s).cache.get .tri = s.cache.get .tri := by
    rw [clockUnits_cache, clockHalfStep_word_other (fun p => by cases p <;> decide)]
    rfl
  exact word

/-! ### The tick (R183, R184) -/

/-- The state a tick hands to its `Sync` (R183). -/
def unitsTicked (s : State) : State :=
  if recomputeRequested s (clockUnits s) then recomputeTri (clockUnits s) else clockUnits s

theorem tick_eq (T : Nat) (s : State) : tick T s = sync T (unitsTicked s) := rfl

/-- Only the triangle's word is recomputed (R147). -/
theorem unitsTicked_eq (s : State) : unitsTicked s =
    { clockUnits s with cache := { (clockUnits s).cache with
        tri := if recomputeRequested s (clockUnits s) then triWord (clockUnits s) else s.cache.tri } } := by
  unfold unitsTicked
  split
  · rfl
  · rw [← clockUnits_triWord]

theorem clockHalfStep_eq (entry : BitVec 2) (s : State) : clockHalfStep entry s =
    { s with
      length := (clockHalfStep entry s).length
      sweep := (clockHalfStep entry s).sweep
      cache := (clockHalfStep entry s).cache } := by
  unfold clockHalfStep
  split
  · rw [clockSweeps, clockSweep_eq .pulse1, clockSweep_eq .pulse0]
    rfl
  · rfl

theorem frameFlag_eq (entry : BitVec 2) (s : State) :
    frameFlag entry s = { s with seq := (frameFlag entry s).seq } := by
  unfold frameFlag
  split <;> rfl

/-- `c` with the registers of `t` that a tick writes before its `Sync`. -/
def withTicked (c t : State) : State :=
  { c with env := t.env, tri := t.tri, length := t.length, sweep := t.sweep, cache := t.cache, seq := t.seq }

theorem clockUnits_writes (s : State) : clockUnits s = withTicked s (clockUnits s) := by
  have units : clockUnits s = advanceStep s.seq.step (frameFlag s.seq.step
    (clockHalfStep s.seq.step (clockLinear (clockEnvelopes s)))) := rfl
  rw [units, frameFlag_eq, clockHalfStep_eq]
  rfl

theorem unitsTicked_writes (s : State) : unitsTicked s = withTicked s (unitsTicked s) := by
  rw [unitsTicked_eq]
  conv_lhs => rw [clockUnits_writes]
  rfl

/-- What a quiet effect leaves can be synchronised when what it starts from can (R226 step 1). -/
theorem Quiet.inOrder {pre : List Event} {c e : State} (q : Quiet pre c e) {ts : Nat}
    (h : c.pendingSample ≤ Machine.sampleIndex ts c) : e.pendingSample ≤ Machine.sampleIndex ts e := by
  rwa [q.sampleIndex, q.pendingSample]

/-- The `Sync` after a quiet effect, where no control bit is staged. -/
theorem Quiet.synced {pre : List Event} {c e : State} (q : Quiet pre c e) {ts : Nat}
    (h : c.pendingSample ≤ Machine.sampleIndex ts c) : Synced ts 0 pre c (sync ts e) :=
  stageCtrl_zero (sync ts e) ▸ synced_of_quiet q h

theorem quiet_withTicked (c t : State) : Quiet [] c (withTicked c t) :=
  ⟨rfl, rfl, rfl, rfl, rfl, rfl, rfl, rfl, (List.append_nil _).symm⟩

theorem quiet_unitsTicked (s : State) : Quiet [] s (unitsTicked s) := by
  rw [unitsTicked_writes]
  exact quiet_withTicked ..

theorem tick_length (T : Nat) (s : State) : (tick T s).length = (clockUnits s).length := by
  rw [tick_eq, sync_length, unitsTicked_eq]

theorem tick_sweep_odd {s : State} (odd : s.seq.step.getLsbD 0 = true) (T : Nat) : (tick T s).sweep = s.sweep := by
  rw [tick_eq, sync_sweep, unitsTicked_eq]
  simp only [clockUnits, clockHalfStep_odd odd, advanceStep_sweep, frameFlag_sweep, clockLinear_sweep,
    clockEnvelopes_sweep]

theorem tick_word {ch : Chan} (h : ch ≠ .tri) (T : Nat) (s : State) :
    (tick T s).cache.get ch = (clockUnits s).cache.get ch := by
  rw [tick_eq, sync_cache, unitsTicked_eq]
  cases ch with
  | tri => exact absurd rfl h
  | pulse0 | pulse1 | noise => rfl

/-- The request of R183, written out. -/
theorem recomputeRequested_iff (s t : State) : recomputeRequested s t = true ↔
    ((s.tri.linear != 0) != (t.tri.linear != 0)) = true ∨ (s.length.tri ≠ 0 ∧ t.length.tri = 0) := by
  simp [recomputeRequested, linearRequest, lengthRequest]

theorem triWord_congr {s t : State} (length : t.length = s.length) (tri : t.tri = s.tri) : triWord t = triWord s := by
  rw [triWord, length, tri, triWord]

theorem tick_triWord (T : Nat) (s : State) : (tick T s).cache.tri =
    if (s.tri.linear != 0) != ((tick T s).tri.linear != 0) ∨ (s.length.tri ≠ 0 ∧ (tick T s).length.tri = 0)
      then triWord (tick T s) else s.cache.tri := by
  have tri : (tick T s).tri = (clockUnits s).tri := by rw [tick_tri, clockUnits_tri]
  rw [triWord_congr (tick_length T s) tri, tri, tick_length, tick_eq, sync_cache, unitsTicked_eq]
  exact if_congr (recomputeRequested_iff s _) rfl rfl

/-- The flag is set at the fourth step of the four-step mode unless it is inhibited (R184). -/
theorem tick_sequencer (T : Nat) (s : State) : (tick T s).seq = { s.seq with
    step := s.seq.step + 1
    frameIrq := s.seq.frameIrq || (s.seq.mode == .fourStep && s.seq.step == 3 && !s.seq.irqInhibit) } := by
  rw [tick_seq, clockUnits_seq]
  simp only [Bool.if_true_left, Bool.or_comm, Bool.decide_and, Bool.and_assoc, Bool.decide_eq_false, beq_eq_decide]

theorem tick_synced {T : Nat} {s : State} (inOrder : s.pendingSample ≤ sampleIndex T s) :
    Synced T 0 [] s (tick T s) := (quiet_unitsTicked s).synced inOrder

theorem tick_frame {T : Nat} {s : State} (inOrder : s.pendingSample ≤ sampleIndex T s) :
    tick T s = withTicked (withFifo s (tick T s)) (tick T s) :=
  calc tick T s
    _ = withFifo (unitsTicked s) (tick T s) := sync_eq_withFifo ((quiet_unitsTicked s).inOrder inOrder)
    _ = withFifo (withTicked s (unitsTicked s)) (tick T s) := by rw [← unitsTicked_writes]
    _ = withTicked (withFifo s (tick T s)) (unitsTicked s) := rfl
    _ = withTicked (withFifo s (tick T s)) (tick T s) := by simp [withTicked, tick_eq]

/-- Settles O39: what the units clocked before the `Sync` write is what the tick leaves, and the `Sync` adds the FIFO
side. -/
theorem tickClocksTheUnits : Obligations.TickClocksTheUnits := by
  intro T s _ inOrder t
  refine ⟨tick_synced inOrder, tick_env T s, tick_tri T s, fun even => ⟨?lengths, fun p => ⟨?sweep, ?word⟩⟩,
    fun odd => ⟨?keptLengths, ?keptSweeps, fun p => ?keptWord⟩, fun e => ?volume, ?noise, tick_sequencer T s,
    tick_triWord T s, tick_frame inOrder⟩
  case lengths => exact fun ch => (congrArg (·.get ch) (tick_length T s)).trans (clockUnits_length_even even ch)
  case sweep => exact (tick_sweep T s p).trans (if_pos even)
  case word => exact (tick_word (by cases p <;> decide) T s).trans (clockUnits_word_even even p)
  case keptLengths => exact (tick_length T s).trans (clockUnits_length_odd odd)
  case keptSweeps => exact tick_sweep_odd odd T
  case keptWord => rw [tick_word (by cases p <;> decide), clockUnits_word_odd odd]
  case volume => rw [tick_word (by cases e <;> decide), clockUnits_volume, tick_env, clockUnits_env]
  case noise =>
    have word : t.cache.noise = (clockUnits s).cache.noise := tick_word (ch := .noise) (by decide) T s
    rw [word, clockUnits_noiseWord]

/-! ### `SEQ_CTRL` (R185) -/

/-- No halt reads the sequencer (R166). -/
theorem halted_seqConfigure (v : Byte) (ch : Chan) (s : State) : halted ch (seqConfigure v s) = halted ch s := by
  cases ch <;> rfl

/-- Resetting the divider and synchronising can be done in either order. -/
theorem sync_seqRestart (ts : Nat) (s : State) : sync ts (seqRestart ts s) = seqRestart ts (sync ts s) := by
  have index : sampleIndex ts (seqRestart ts s) = sampleIndex ts s := rfl
  have pending : (seqRestart ts s).pendingSample = s.pendingSample := rfl
  rw [sync, sync, index, pending]
  split
  · rfl
  · split <;> rfl

theorem rebuild_rebuild (i : Nat) (s : State) : rebuild i (rebuild i s) = rebuild i s := rfl

/-- A second `Sync` at one timestamp changes nothing (R226). -/
theorem sync_sync {ts : Nat} {s : State} (inOrder : s.pendingSample ≤ sampleIndex ts s) :
    sync ts (sync ts s) = sync ts s := by
  have same : sampleIndex ts (sync ts s) = sampleIndex ts s := sampleIndex_congr (sync_cfg ts s) (sync_offset ts s) ts
  rw [sync_of_same_index (by rw [same, sync_pendingSample_of_le inOrder]), same]
  rcases sync_cases ts s with ⟨h, _⟩ | ⟨_, e⟩ | ⟨_, e⟩
  · omega
  · rw [e, rebuild_rebuild]
  · rw [e, rebuild_rebuild]

theorem sync_tick {T : Nat} {s : State} (inOrder : s.pendingSample ≤ sampleIndex T s) :
    sync T (tick T s) = tick T s :=
  sync_sync (s := unitsTicked s) ((quiet_unitsTicked s).inOrder inOrder)

/-- The FIFO side does not show the sequencer's registers. -/
theorem Synced.setSeq {ts : Nat} {bits : Byte} {pre : List Event} {c t : State} (h : Synced ts bits pre c t)
    (before after : Sequencer) : Synced ts bits pre { c with seq := before } { t with seq := after } :=
  ⟨h.index, h.words, h.events, h.kept, h.flushed⟩

/-- The sequencer's registers after `SEQ_CTRL` (R185); `step` is 1 where its tick has moved it on. -/
def seqWritten (ts : Nat) (v : Byte) (step : BitVec 2) (s : State) : Sequencer :=
  { (seqConfigure v s).seq with
    step := step, nextTick := ts + stepP2Of s.cfg (seqModeOf (seqModeBit v)) / 2, half := true }

theorem seqRestart_sync_seqConfigure (ts : Nat) (v : Byte) (s : State) :
    seqRestart ts (sync ts (seqConfigure v s)) =
      { sync ts (seqConfigure v s) with seq := seqWritten ts v 0 s } := by
  rw [seqRestart_eq, sync_seq]
  rfl

/-- No frame flag is set in the five-step mode: the tick moves the step on (R184). -/
theorem seqRestart_tick_seqConfigure (ts : Nat) {v : Byte} (mode : seqModeBit v = true) (s : State) :
    seqRestart ts (tick ts (seqConfigure v s)) =
      { tick ts (seqConfigure v s) with seq := seqWritten ts v 1 s } := by
  have five : (seqConfigure v s).seq.mode = .fiveStep := if_pos mode
  have ticked : (tick ts (seqConfigure v s)).seq = { (seqConfigure v s).seq with step := 1 } := by
    rw [tick_sequencer, five]
    simp [seqConfigure]
  rw [seqRestart_eq, ticked]
  rfl

/-- A served `SEQ_CTRL` by the state `u` it hands to the divider's reset: its own `Sync` may come before the reset. -/
theorem exec_seqCtrl {ts v : Nat} {s u : State} (h : Served (.seqCtrl ts v) s)
    (effect : seqControl ts (dataByte v) (arrive ts s) = seqRestart ts u) (noFault : u.fault = none)
    (synced : (sync ts u).fault = none) : exec (.seqCtrl ts v) s = .next (seqRestart ts (sync ts u)) := by
  have body : commandBody (.seqCtrl ts v) s =
    andThen (andThen (andThen (arrive ts s) (seqControl ts (dataByte v))) (sync ts)) (stageCtrl 0) := rfl
  have arrived : (arrive ts s).fault = none := h.caughtUp
  have restarted : (seqRestart ts u).fault = none := noFault
  have ended : (seqRestart ts (sync ts u)).fault = none := synced
  rw [exec_of_wf h.wf, body, andThen_ok arrived, effect, andThen_ok restarted, sync_seqRestart, andThen_ok ended,
    stageCtrl_zero]

section
variable {ts v : Nat} {s : State} (h : Served (.seqCtrl ts v) s)
include h

theorem Served.seqConfigure_inOrder : (seqConfigure (dataByte v) (arrive ts s)).pendingSample ≤
    sampleIndex ts (seqConfigure (dataByte v) (arrive ts s)) := h.inOrder

theorem Served.seqConfigure_fault : (seqConfigure (dataByte v) (arrive ts s)).fault = none := h.caughtUp

/-- Without the immediate tick. -/
theorem exec_seqCtrl_fourStep (mode : seqModeBit (dataByte v) = false) : exec (.seqCtrl ts v) s =
    .next { sync ts (seqConfigure (dataByte v) (arrive ts s)) with
      seq := seqWritten ts (dataByte v) 0 (arrive ts s) } := by
  have noFault := h.seqConfigure_fault
  have effect : seqControl ts (dataByte v) (arrive ts s) =
      seqRestart ts (seqConfigure (dataByte v) (arrive ts s)) := by
    rw [seqControl, mode, if_neg Bool.false_ne_true, andThen_ok noFault]
  rw [exec_seqCtrl h effect noFault ((sync_fault_of_le h.seqConfigure_inOrder).trans noFault),
    seqRestart_sync_seqConfigure]

/-- With it: the tick has synchronised already. -/
theorem exec_seqCtrl_fiveStep (mode : seqModeBit (dataByte v) = true) : exec (.seqCtrl ts v) s =
    .next { tick ts (seqConfigure (dataByte v) (arrive ts s)) with
      seq := seqWritten ts (dataByte v) 1 (arrive ts s) } := by
  have inOrder := h.seqConfigure_inOrder
  have noFault : (tick ts (seqConfigure (dataByte v) (arrive ts s))).fault = none :=
    (tick_fault_of_le inOrder).trans h.seqConfigure_fault
  have effect : seqControl ts (dataByte v) (arrive ts s) =
      seqRestart ts (tick ts (seqConfigure (dataByte v) (arrive ts s))) := by
    rw [seqControl, mode, if_pos rfl, andThen_ok noFault]
  rw [exec_seqCtrl h effect noFault ((congrArg State.fault (sync_tick inOrder)).trans noFault), sync_tick inOrder,
    seqRestart_tick_seqConfigure ts mode]

end

/-- Settles O27: the divider's reset comes after a `Sync` of what the byte configures, or after its tick, which is the
tick of O39 entered with step 0. -/
theorem sequencerControlWrite : Obligations.SequencerControlWrite := by
  intro ts v s h c b
  have inOrder : (seqConfigure b c).pendingSample ≤ sampleIndex ts (seqConfigure b c) := h.inOrder
  cases mode : b.getLsbD 7 with
  | false =>
    have written : seqModeOf (seqModeBit b) = .fourStep := if_neg (Bool.eq_false_iff.mp mode)
    have synced := (Quiet.refl (seqConfigure b c)).synced inOrder
    refine ⟨_, exec_seqCtrl_fourStep h mode, synced.setSeq c.seq _, rfl, rfl, rfl,
      fun _ => ⟨?frame, rfl, written, ?stepP2, ?nextTick⟩, nofun⟩
    case frame => exact congrArg (fun t => { t with seq := seqWritten ts b 0 c }) (sync_eq_withFifo inOrder)
    case stepP2 => exact congrArg (stepP2Of c.cfg) written
    case nextTick => exact congrArg (ts + stepP2Of c.cfg · / 2) written
  | true =>
    have written : seqModeOf (seqModeBit b) = .fiveStep := if_pos mode
    obtain ⟨synced, env, tri, even, -, volumes, noise, -, triWord, frame⟩ :=
      tickClocksTheUnits ts (seqConfigure b c) h.caughtUp inOrder
    obtain ⟨lengths, sweeps⟩ := even (show (0 : BitVec 2).getLsbD 0 = false by decide)
    refine ⟨_, exec_seqCtrl_fiveStep h mode, synced.setSeq c.seq _, rfl, rfl, rfl, nofun,
      fun _ => ⟨?frame, rfl, written, ?stepP2, ?nextTick, env, tri, ?lengths, ?sweeps, volumes, noise, triWord⟩⟩
    case frame => exact congrArg (fun t => { t with seq := seqWritten ts b 1 c }) frame
    case stepP2 => exact congrArg (stepP2Of c.cfg) written
    case nextTick => exact congrArg (ts + stepP2Of c.cfg · / 2) written
    case lengths =>
      intro ch
      rw [← halted_seqConfigure b]
      exact lengths ch
    case sweeps =>
      intro p
      obtain ⟨sweep, word⟩ := sweeps p
      exact ⟨sweep, word.trans (clockSweep_cache_congr rfl rfl)⟩

end Sys2Proof.Machine
end

section
/-! SUPPORT. The delta-modulation player: its cursor and its level (R207, R209), its tick (R206, R208, R210 to R212),
and its ports (R201 to R204). -/

namespace Sys2Proof.Machine

/-! ### The byte of a read (R61) -/

theorem sampleAt_pinned {addr : Word16} {s : State} {b : Byte} (h : sparseGet addr.toNat s.mem = some b) :
    sampleAt addr s = b := by
  rw [sampleAt, h]

/-! ### The ways of a tick (R208) -/

section
variable {s : State}

theorem dmcTick_playing (bits : s.dmc.bitsRem ≠ 0) (T : Nat) : dmcTick T s = dmcPlayBit T s := if_pos bits

/-- Without bits left the bytes left decide. -/
theorem dmcTick_noBits (bits : s.dmc.bitsRem = 0) (T : Nat) : dmcTick T s =
    if s.dmc.bytesRem ≠ 0 then dmcPlayBit T (dmcFetch s)
    else if s.dmc.loop then dmcPlayBit T (dmcFetch (dmcRestart s)) else dmcComplete s :=
  if_neg (not_not.mpr bits)

/-- A fetch brings eight bits, so the tick that fetches goes on as a tick from the fetched state. -/
theorem dmcTick_fetching (bits : s.dmc.bitsRem = 0) (bytes : s.dmc.bytesRem ≠ 0) (T : Nat) :
    dmcTick T s = dmcTick T (dmcFetch s) := by
  have fetched : (dmcFetch s).dmc.bitsRem ≠ 0 := Nat.succ_ne_zero 7
  rw [dmcTick_noBits bits, if_pos bytes, dmcTick_playing fetched]

/-- A restart brings a byte at least, so the tick that restarts goes on as a tick that fetches (R206). -/
theorem dmcTick_restarting (bits : s.dmc.bitsRem = 0) (bytes : s.dmc.bytesRem = 0) (loop : s.dmc.loop = true)
    (T : Nat) : dmcTick T s = dmcTick T (dmcRestart s) := by
  have restarted : (dmcRestart s).dmc.bytesRem ≠ 0 := Nat.succ_ne_zero _
  rw [dmcTick_noBits bits, if_neg (not_not.mpr bytes), if_pos loop, dmcTick_noBits (s := dmcRestart s) bits,
    if_pos restarted]

theorem dmcTick_completing (bits : s.dmc.bitsRem = 0) (bytes : s.dmc.bytesRem = 0) (loop : s.dmc.loop = false)
    (T : Nat) : dmcTick T s = dmcComplete s := by
  rw [dmcTick_noBits bits, if_neg (not_not.mpr bytes), loop, if_neg Bool.false_ne_true]

end

/-- The shifts of `Restart` as products (R206). -/
theorem dmcRestart_eq (s : State) : dmcRestart s = { s with dmc := { s.dmc with
    cursor := BitVec.ofNat 16 (s.cfg.dmcBase + s.dmc.start.toNat * 64)
    bytesRem := s.dmc.len.toNat * 16 + 1 } } := by
  rw [dmcRestart, Nat.shiftLeft_eq, Nat.shiftLeft_eq]

/-- Settles O44: the bytes left, then the loop flag, pick one of the three ways; the fetched byte is the one the read
answers. -/
theorem playerTickFetchesRestartsOrCompletes : Obligations.PlayerTickFetchesRestartsOrCompletes := by
  intro T s bits
  refine ⟨fun bytes => ?fetches, fun bytes loop => ?restarts, fun bytes loop => ?completes⟩
  case fetches => exact ⟨sampleAt s.dmc.cursor s, fun _ => sampleAt_pinned, dmcTick_fetching bits bytes T⟩
  case restarts => rw [dmcTick_restarting bits bytes loop, dmcRestart_eq]
  case completes => exact dmcTick_completing bits bytes loop T

/-! ### The cursor (R207) -/

/-- The sum modulo 65536 has the 15 low bits of the sum, and the forced bit puts 0x8000 above them. -/
theorem nextCursor_toNat (c : Word16) : (nextCursor c).toNat = 0x8000 + (c.toNat + 1) % 0x8000 := by
  have high : 0x8000 ≤ (nextCursor c).toNat :=
    BitVec.toNat_ge_of_msb_true ((BitVec.msb_eq_getLsbD_last _).trans (nextCursor_high c))
  have low : (nextCursor c).toNat % 2 ^ 15 = (c + 1).toNat % 2 ^ 15 := by
    rw [nextCursor, BitVec.toNat_or, Nat.or_mod_two_pow]
    exact Nat.or_zero _
  bv_omega

/-- Settles O41: bit 15 is forced, and below it stands the incremented value. -/
theorem cursorStaysInTheUpperHalf : Obligations.CursorStaysInTheUpperHalf :=
  ⟨nextCursor_high, nextCursor_toNat, by decide⟩

/-! ### The level (R209) -/

/-- The guards keep the byte's sum and difference from wrapping. -/
theorem bitLevel_toNat (b : Bool) (level : Byte) :
    ((bitLevel b level).toNat : Int) = level.toNat + bitDelta b level := by
  unfold bitLevel bitDelta
  cases b with
  | false =>
    rw [if_neg Bool.false_ne_true, if_neg Bool.false_ne_true]
    split <;> bv_omega
  | true =>
    rw [if_pos rfl, if_pos rfl]
    split <;> bv_omega

theorem bitDelta_eq (b : Bool) (level : Byte) : bitDelta b level =
    if b then (if level.toNat ≤ 125 then 2 else 0) else (if 2 ≤ level.toNat then -2 else 0) := by
  have guard : level.toNat + 2 ≤ 127 ↔ level.toNat ≤ 125 := by omega
  simp only [bitDelta, guard]

/-- Settles O42: the level changes by the delta, and the delta's guards are the two bounds. -/
theorem deltaBitNeverCrossesTheBoundary : Obligations.DeltaBitNeverCrossesTheBoundary := fun b level =>
  ⟨bitLevel_toNat b level, bitDelta_eq b level, bitLevel_le⟩

/-! ### The delta stream under one write (R67, R212) -/

theorem deltaAt_congr {s t : State} (h : t.deltas = s.deltas) (k : Nat) : deltaAt k t = deltaAt k s := by
  rw [deltaAt, deltaAt, h]

/-- An operation whose one write to the stream is `v` at `i` leaves `v` there and every other entry as it was. -/
theorem deltaAt_of_put {i : Nat} {v : Int} {s t : State} (put : t.deltas = deltaPut i v s.deltas) (wf : s.deltas.wf) :
    deltaAt i t = v ∧ ∀ k, k ≠ i → deltaAt k t = deltaAt k s := by
  have written : ∀ k, deltaAt k t = deltaAt k (deltaWrite i v s) := deltaAt_congr put
  exact ⟨(written i).trans (deltaAt_write_same i v s wf),
    fun k other => (written k).trans (deltaAt_write_other v s other)⟩

/-! ### A tick with bits left (R208, R211) -/

theorem ushiftRight_one_eq (b : Byte) : b >>> 1 = BitVec.ofNat 8 (b.toNat / 2) := by
  have half : (b >>> 1).toNat = b.toNat / 2 := by rw [BitVec.toNat_ushiftRight, Nat.shiftRight_eq_div_pow]
  rw [← half, BitVec.ofNat_toNat, BitVec.setWidth_eq]

/-- Settles O43: the bit moves the level, `Emit` stages and writes the delta, and the shift and the schedule follow. -/
theorem playerTickPlaysOneBit : Obligations.PlayerTickPlaysOneBit := by
  intro T s bits wf t d sum
  have played : t = dmcPlayBit T s := dmcTick_playing bits T
  have put : t.deltas = deltaPut (sampleIndex T s) sum s.deltas := congrArg State.deltas played
  refine ⟨?_, deltaAt_of_put put wf⟩
  rw [← ushiftRight_one_eq, played]
  rfl

/-! ### The ports (R201 to R204) -/

/-- Settles O23: the effect sets four of the player's registers, and the `Sync` after it the FIFO side. -/
theorem playerControlWrite : Obligations.PlayerControlWrite := fun ts v _ h =>
  h.write (eff := dmcControl (dataByte v)) rfl (ts := ts) rfl ((Quiet.refl _).setDmc _)

/-- Settles O25: each effect sets one byte of the player, and the `Sync` after it the FIFO side. -/
theorem playerAddressAndLengthWrites : Obligations.PlayerAddressAndLengthWrites := fun ts v _ =>
  ⟨fun h => h.write (eff := dmcStart (dataByte v)) rfl (ts := ts) rfl ((Quiet.refl _).setDmc _),
    fun h => h.write (eff := dmcLength (dataByte v)) rfl (ts := ts) rfl ((Quiet.refl _).setDmc _)⟩

/-- The one event a direct load reports is the delta it stages. -/
theorem quiet_dmcDirect (ts : Nat) (v : Byte) (s : State) :
    Quiet [.delta (sampleIndex ts s) (dmcDirect ts v s).dmc.stagedDelta] s (dmcDirect ts v s) :=
  ⟨rfl, rfl, rfl, rfl, rfl, rfl, rfl, rfl, rfl⟩

theorem runDue_deltas_wf (T : Nat) (who : Due) {s : State} (h : s.deltas.wf) : (runDue T who s).deltas.wf := by
  cases who with
  | seqTick => exact andThen_keeps (P := fun t => t.deltas.wf) ((tick_deltas T s).symm ▸ h) fun _ k => k
  | triExpiry => exact (triExpire_deltas T s).symm ▸ h
  | dmcTick => exact dmcTick_deltas_wf h

theorem arrive_deltas_wf (ts : Nat) {s : State} (h : s.deltas.wf) : (arrive ts s).deltas.wf :=
  arrive_keeps (P := fun t => t.deltas.wf) h (fun k => (checkTime_sameStores ts s).deltas.symm ▸ k)
    fun T who _ _ k => runDue_deltas_wf T who k

/-- Settles O24: the effect loads the level and hands the difference to `Emit`, and the `Sync` after it sets the FIFO
side. -/
theorem playerLevelWrite : Obligations.PlayerLevelWrite := by
  intro ts v s h wf c new d sum
  obtain ⟨t, ht, frame, synced⟩ :=
    h.write (eff := dmcDirect ts (dataByte v)) rfl (ts := ts) rfl (quiet_dmcDirect ts (dataByte v) c)
  have put : t.deltas = deltaPut (sampleIndex ts c) sum c.deltas := (congrArg State.deltas frame :)
  refine ⟨t, ht, ?_, synced, deltaAt_of_put put (arrive_deltas_wf ts wf)⟩
  rw [put]
  exact frame

end Sys2Proof.Machine
end

section
/-! SUPPORT. The synchroniser: the words it stages (R229 to R231), what one `Sync` leaves (R226, R227, R235), and what
commands with no event between them hand to the consumer (R232 to R234). -/

namespace Sys2Proof.Machine

/-! ### The staged words (R229 to R231) -/

theorem active_iff {ch : Chan} {s : State} : active ch s = true ↔ s.length.get ch ≠ 0 := bne_iff_ne

theorem sweepOverflows_iff {sw : Sweep} {per : Nat} :
    sweepOverflows sw per = true ↔ sw.negate = false ∧ 0x7FF < per + per / 2 ^ sw.shift.toNat := by
  simp [sweepOverflows, Nat.shiftRight_eq_div_pow]

/-- The three tests of R229 as one. -/
theorem stagedPulse_eq (p : PulseIx) (s : State) : stagedPulse p s =
    if s.length.get p.chan = 0 ∨ (pulsePeriod (s.cache.get p.chan)).toNat < 8 ∨
      sweepOverflows (s.sweep.get p) (pulsePeriod (s.cache.get p.chan)).toNat = true
    then 0 else s.cache.get p.chan := by
  rw [stagedPulse, ite_or, ite_or]
  exact if_congr (by simp [active]) rfl rfl

/-- Settles O46: the three mutes are one test, and the overflow is the spec's sum. -/
theorem stagedPulseWordIsMutedOrTheCacheWord : Obligations.StagedPulseWordIsMutedOrTheCacheWord := fun p s =>
  have tests := or_congr_right (or_congr_right sweepOverflows_iff)
  ⟨fun h => (stagedPulse_eq p s).trans (if_pos (tests.mpr h)),
    fun h => (stagedPulse_eq p s).trans (if_neg (mt tests.mp h))⟩

theorem stagedTri_eq (s : State) : stagedTri s = if s.length.tri = 0 then 0 else s.cache.tri := by
  rw [stagedTri, ← ite_not]
  exact if_congr active_iff.not_left rfl rfl

theorem stagedNoise_active {s : State} (h : s.length.noise ≠ 0) : stagedNoise s = s.cache.noise :=
  if_pos (active_iff (ch := .noise) |>.mpr h)

theorem stagedNoise_inactive {s : State} (h : s.length.noise = 0) :
    stagedNoise s = s.cache.noise &&& ~~~s.cfg.noiseFields :=
  if_neg fun k => active_iff (ch := .noise) |>.mp k h

/-- Settles O47: the mask of an inactive noise channel is read bit by bit. -/
theorem stagedTriangleAndNoiseWords : Obligations.StagedTriangleAndNoiseWords := by
  refine fun s => ⟨stagedTri_eq s, stagedNoise_active, fun h k hk => ?_⟩
  rw [stagedNoise_inactive h, BitVec.getLsbD_and, BitVec.getLsbD_not, decide_eq_true hk, Bool.true_and]

/-! ### One `Sync` (R226, R227, R235) -/

theorem sync_regression {ts : Nat} {s : State} (h : sampleIndex ts s < s.pendingSample) :
    sync ts s = raise (.sampleIndexRegression (sampleIndex ts s) s.pendingSample) s := if_pos h

/-- Settles O45: a `Sync` without an effect before it, and R226's step 1. -/
theorem syncFlushesThenRebuilds : Obligations.SyncFlushesThenRebuilds := fun _ s =>
  ⟨fun inOrder => ⟨sync_eq_withFifo inOrder, (Quiet.refl s).synced inOrder⟩, sync_regression⟩

/-- Within a sample period nothing is flushed (R226). -/
theorem Synced.events_kept {ts : Nat} {bits : Byte} {c t : State} (h : Synced ts bits [] c t)
    (same : sampleIndex ts c = c.pendingSample) : t.events = c.events := by
  rw [h.events, flushEvents, if_pos same, List.append_nil, List.append_nil]

/-- A `Sync` that opens a sample period writes the slot of the one before (R226). -/
theorem Synced.events_flushed {ts : Nat} {bits : Byte} {c t : State} (h : Synced ts bits [] c t)
    (opens : sampleIndex ts c ≠ c.pendingSample) : t.events = c.events ++ [.slot c.writeCursor (pendingSlot c)] := by
  rw [h.events, flushEvents, if_neg opens, List.append_nil]

/-! ### Commands with no event between them (R102, R103) -/

/-- A command at any time from `first` to `last` opens at once: no fault, no hold, no event due by then. -/
structure Calm (first last : Nat) (s : State) : Prop where
  noFault : s.fault = none
  noWait : s.eofWait = none
  inTime : s.lastTs ≤ first
  noneDue : NoneDue last s

theorem NoneDue.mono {t u : Nat} {s : State} (h : NoneDue u s) (le : t ≤ u) : NoneDue t s where
  tick := Nat.lt_of_le_of_lt le h.tick
  tri x hx := Nat.lt_of_le_of_lt le (h.tri x hx)
  dmc x hx := Nat.lt_of_le_of_lt le (h.dmc x hx)

theorem Ready.calm {i : Instr} {last : Nat} {s : State} (h : Ready i s) (idle : NoneDue last s) :
    Calm i.ts last s := ⟨h.noFault, h.noWait, h.inTime, idle⟩

/-- Neither the FIFO side nor the units hold the times. -/
theorem Calm.of_frame {first last : Nat} {c e t : State} (calm : Calm first last c)
    (frame : t = withFifo (withUnits c e) t) : Calm first last t := by
  rw [frame]
  exact ⟨calm.noFault, calm.noWait, calm.inTime, { calm.noneDue with }⟩

section
variable {first last ts : Nat} {s : State} (calm : Calm first last s) (after : first ≤ ts) (before : ts ≤ last)
include calm after before

/-- Only the timestamp moves. -/
theorem Calm.arrive : arrive ts s = { s with lastTs := ts } := by
  obtain ⟨-, opening, -⟩ := catchUpRunsEventsInOrder
  exact opening ts s calm.noFault (calm.inTime.trans after) (calm.noneDue.mono before)

theorem Calm.served {i : Instr} (wf : i.wf = true) (hts : i.ts = ts) (inOrder : s.pendingSample ≤ sampleIndex ts s) :
    Served i s := by
  subst hts
  have opened := calm.arrive after before
  refine ⟨⟨wf, calm.noFault, calm.noWait, calm.inTime.trans after⟩, ?_, ?_⟩
  · rw [opened]
    exact calm.noFault
  · rw [opened]
    exact inOrder

theorem Calm.synced {bits : Byte} {pre : List Event} {t : State} (h : Synced ts bits pre (Machine.arrive ts s) t) :
    Synced ts bits pre s t := by
  rw [calm.arrive after before] at h
  exact ⟨h.index, h.words, h.events, h.kept, h.flushed⟩

/-- A `WRITE` of the units leaves the times and the bridge as they were, so the next command opens at once too. -/
theorem Calm.write {i : Instr} {eff : State → State} {bits : Byte} (wf : i.wf = true) (hts : i.ts = ts)
    (hx : exec i s = writeCommand i eff bits s) (units : ∀ c, withUnits c (eff c) = eff c)
    (inOrder : s.pendingSample ≤ sampleIndex ts s) :
    ∃ t, exec i s = .next t ∧ t.cache = (eff { s with lastTs := ts }).cache ∧ Synced ts bits [] s t ∧
      Calm ts last t ∧ ∀ x, sampleIndex x t = sampleIndex x s := by
  obtain ⟨t, ht, frame, synced⟩ :=
    (calm.served after before wf hts inOrder).write hx hts (Quiet.of_units (units _))
  rw [calm.arrive after before] at frame
  have cache := congrArg State.cache frame
  rw [← units] at frame
  have moved : Calm ts last { s with lastTs := ts } :=
    ⟨calm.noFault, calm.noWait, le_rfl, { calm.noneDue with }⟩
  exact ⟨t, ht, cache, calm.synced after before synced, moved.of_frame frame,
    sampleIndex_congr (congrArg State.cfg frame :) (congrArg State.offset frame :)⟩

/-- A `FORCE` past the sample period hands it over whole (R106, R226). -/
theorem Calm.force (inRange : ts < 2 ^ 32) (opens : s.pendingSample < sampleIndex ts s) :
    ∃ t, exec (.force ts) s = .next t ∧ t.events = s.events ++ [.slot s.writeCursor (pendingSlot s)] ∧
      slotAt s.writeCursor t = some (pendingSlot s) := by
  have wf : (Instr.force ts).wf = true := (Instr.wf_iff _).mpr ⟨inRange, nofun⟩
  have served := calm.served after before wf rfl (Nat.le_of_lt opens)
  have synced := calm.synced after before served.synced
  obtain ⟨-, -, slot, -⟩ := synced.flushed (Nat.ne_of_gt opens)
  exact ⟨_, exec_force served, synced.events_flushed (Nat.ne_of_gt opens), slot⟩

end

/-! ### Two writes in one sample period (R234) -/

theorem pulseLowOf_wf (p : PulseIx) {ts v : Nat} (hts : ts < 2 ^ 32) (hv : v < 2 ^ 8) :
    (pulseLowOf p ts v).wf = true := by
  rw [Instr.wf_iff]
  cases p <;> exact ⟨hts, fun u hu => by cases hu; exact hv⟩

/-- Settles O48: the second write's `Sync` falls in the period Pending already stands for, so it only rebuilds Pending,
and the flush `FORCE` makes is the first to hand that period over. -/
theorem laterWriteOfAPeriodWins : Obligations.LaterWriteOfAPeriodWins := by
  intro p t1 v1 t2 v2 t3 s ready le12 inRange le23 fits idle inOrder same later
  obtain ⟨hx1, hts1⟩ := pulseLowOf_write p t1 v1 s
  have calm : Calm t1 t3 s := hts1 ▸ ready.calm idle
  obtain ⟨a, ha, -, syncedA, calmA, indexA⟩ :=
    calm.write le_rfl (le12.trans le23) ready.wf hts1 hx1 (fun _ => rfl) inOrder
  have stays : sampleIndex t2 a = a.pendingSample := by rw [indexA, syncedA.index, same]
  obtain ⟨hx2, hts2⟩ := pulseLowOf_write p t2 v2 a
  obtain ⟨b, hb, cacheB, syncedB, calmB, indexB⟩ := calmA.write le12 le23
    (pulseLowOf_wf p (le23.trans_lt fits) inRange) hts2 hx2 (fun _ => rfl) stays.ge
  have period : b.pendingSample = sampleIndex t1 s := by rw [syncedB.index, indexA, same]
  obtain ⟨c, hc, eventsC, slot⟩ := calmB.force le23 le_rfl fits (by rwa [period, indexB, indexA, same])
  refine ⟨a, b, c, ha, hb, hc, ?word, ?events, period, syncedB.words, slot⟩
  case word =>
    rw [cacheB, pulseLow, PerChan.get_set_same, field_setField_same _ _ _ (by decide)]
    rfl
  case events => rw [eventsC, syncedB.events_kept stays, syncedA.events, List.append_nil]

/-! ### A phase reset that opens a sample period (R232, R233) -/

/-- Settles O49: the write's own flush is of the state before it, and only then is the phase-reset bit staged. -/
theorem phaseResetGoesOutWithTheNewPeriod : Obligations.PhaseResetGoesOutWithTheNewPeriod := by
  intro p t1 v t2 s ready le12 fits idle opens later
  obtain ⟨hx, hts⟩ := pulseHighOf_write p t1 v s
  have calm : Calm t1 t2 s := hts ▸ ready.calm idle
  obtain ⟨a, ha, cacheA, syncedA, calmA, indexA⟩ :=
    calm.write le_rfl le12 ready.wf hts hx (withUnits_pulseHigh p _) (Nat.le_of_lt opens)
  obtain ⟨bits, -⟩ := syncedA.flushed (Nat.ne_of_gt opens)
  obtain ⟨b, hb, eventsB, -⟩ := calmA.force le12 le_rfl fits (by rwa [syncedA.index, indexA])
  refine ⟨a, b, ha, hb, ?events, syncedA.index, syncedA.words, ?ctrl, ?word⟩
  case events => rw [eventsB, syncedA.events_flushed (Nat.ne_of_gt opens), List.append_assoc]; rfl
  case ctrl =>
    refine bits.trans ?_
    cases p <;> rfl
  case word =>
    rw [cacheA, pulseHigh_eq, PerChan.get_set_same, field_setField_same _ _ _ (by decide)]
    rfl

end Sys2Proof.Machine
end

section
/-! SUPPORT. The timestamp bridge: the sample index under a rebase (R245, R253), how the consumer lifts a held `EOF`
(R70, R251). -/

namespace Sys2Proof.Machine

/-- Settles O50: the shifts are divisions, and a rebase puts into `offset` what it takes from the times. -/
theorem sampleIndexIsMonotoneAndRebaseProof : Obligations.SampleIndexIsMonotoneAndRebaseProof := fun t _ _ ts s =>
  ⟨sampleIndex_eq t s, sampleIndex_mono s, fun h => sampleIndex_moveTimes h s, rebaseAmount_eq ts, rebaseAmount_le ts⟩

/-! ### The consumer against a held `EOF` (R70, R251) -/

/-- Both cursors lie in the ring (R63, R68). -/
structure InRing (s : State) : Prop where
  readPos : s.readPos < s.cfg.nslots
  writeCursor : s.writeCursor < s.cfg.nslots

/-- The lead without the wrap of its subtraction (R251). -/
theorem InRing.lead_eq {s : State} (h : InRing s) :
    lead s = if s.readPos ≤ s.writeCursor then s.writeCursor - s.readPos
      else s.writeCursor + s.cfg.nslots - s.readPos := by
  obtain ⟨hr, hw⟩ := h
  unfold lead readPosition
  split
  · rw [Int.emod_eq_of_lt (by omega) (by omega)]
    omega
  · rw [← Int.add_emod_right, Int.emod_eq_of_lt (by omega) (by omega)]
    omega

/-- A consumer turn writes the read position only (R70). -/
theorem consumerAdvance_frame (s : State) : consumerAdvance s = { s with readPos := (consumerAdvance s).readPos } := by
  rw [consumerAdvance_eq]
  split <;> rfl

theorem InRing.consumerAdvance {s : State} (h : InRing s) : InRing (consumerAdvance s) := by
  rw [consumerAdvance_eq]
  split
  · exact h
  · exact ⟨Nat.mod_lt _ (Nat.zero_lt_of_lt h.readPos), h.writeCursor⟩

/-- A consumer turn reduces the lead by one, down to 0 (R70, R251). -/
theorem InRing.lead_consumerAdvance {s : State} (h : InRing s) : lead (Machine.consumerAdvance s) = lead s - 1 := by
  rw [h.consumerAdvance.lead_eq, h.lead_eq]
  obtain ⟨hr, hw⟩ := h
  rw [consumerAdvance_eq]
  by_cases caughtUp : s.readPos = s.writeCursor
  · simp [caughtUp]
  · simp only [if_neg caughtUp]
    rcases Nat.lt_or_ge (s.readPos + 1) s.cfg.nslots with inside | wraps
    · rw [Nat.mod_eq_of_lt inside]
      split <;> split <;> omega
    · have last : s.readPos + 1 = s.cfg.nslots := by omega
      rw [last, Nat.mod_self]
      split <;> split <;> omega

theorem InRing.lead_iterate (k : Nat) {s : State} (h : InRing s) :
    lead (Machine.consumerAdvance^[k] s) = lead s - k := by
  induction k generalizing s with
  | zero => rfl
  | succ k ih => rw [Function.iterate_succ_apply, ih h.consumerAdvance, h.lead_consumerAdvance, Nat.sub_sub, Nat.add_comm]

theorem iterate_consumerAdvance_frame (k : Nat) (s : State) :
    consumerAdvance^[k] s = { s with readPos := (consumerAdvance^[k] s).readPos } := by
  induction k generalizing s with
  | zero => rfl
  | succ k ih => rw [Function.iterate_succ_apply, ih, consumerAdvance_frame]

/-- A held `EOF` passes where the lead allows it, and only there (R251). -/
theorem passWait_eofWait {s : State} {ts : Nat} (held : s.eofWait = some ts) :
    (passWait ts s).eofWait = none ↔ lead s ≤ s.cfg.leadSlots := by
  unfold passWait
  split
  · exact iff_of_true rfl ‹_›
  · exact iff_of_false (by simp [held]) ‹_›

/-- Settles O32: each consumer turn takes one from the lead and leaves the hold as it is, so the test of R251 first
succeeds after as many turns as the lead exceeds `LEAD_SLOTS`. -/
theorem holdLiftsAfterExactlyTheExcessLead : Obligations.HoldLiftsAfterExactlyTheExcessLead := by
  intro s ts k hr hw held _
  have fewer := InRing.lead_iterate k ⟨hr, hw⟩
  have frame := iterate_consumerAdvance_frame k s
  have stillHeld : (consumerAdvance^[k] s).eofWait = some ts := by rw [frame]; exact held
  have sameCfg : (consumerAdvance^[k] s).cfg = s.cfg := by rw [frame]
  refine ⟨fewer, ?_⟩
  rw [passWait_eofWait stillHeld, fewer, sameCfg]
  omega

end Sys2Proof.Machine
end

section
/-! SUPPORT. A rebase is transparent to every command but `EOF` (R252, R253): each piece of a command, at a time moved
down with the stored times, does what it would have done before the move. -/

namespace Sys2Proof.Machine

/-! ### Pieces of a command before and after a move of the times -/

/-- On a state whose times were moved down by `d`, `g` gives what `f` gives on the state before the move, moved down by
`d`; and `f` stores no time before `d`. -/
def Shifts (d : Nat) (f g : State → State) : Prop :=
  ∀ s, TimesFrom d s → g (moveTimes d s) = moveTimes d (f s) ∧ TimesFrom d (f s)

/-- The absolute times a state holds (R252). -/
def storedTimes (s : State) : Nat × Nat × Option Nat × Option Nat :=
  (s.lastTs, s.seq.nextTick, s.tri.updateAt, s.dmc.nextCommit)

theorem TimesFrom.of_same {d : Nat} {s t : State} (h : TimesFrom d s) (same : storedTimes t = storedTimes s) :
    TimesFrom d t := by
  simp only [storedTimes, Prod.mk.injEq] at same
  obtain ⟨last, tick, tri, dmc⟩ := same
  exact ⟨last ▸ h.last, tick ▸ h.tick, tri ▸ h.tri, dmc ▸ h.dmc⟩

section
variable {d : Nat} {f f' k k' g g' : State → State}

/-- An operation that neither reads nor writes a time: for most, both facts hold by definition. -/
theorem Shifts.of_timeless (commutes : ∀ s, f (moveTimes d s) = moveTimes d (f s) := by exact fun _ => rfl)
    (keeps : ∀ s, storedTimes (f s) = storedTimes s := by exact fun _ => rfl) : Shifts d f f :=
  fun s fromD => ⟨commutes s, fromD.of_same (keeps s)⟩

theorem shifts_id : Shifts d (fun s => s) (fun s => s) := .of_timeless

theorem Shifts.followedBy (hf : Shifts d f f') (hk : Shifts d k k') :
    Shifts d (fun s => k (f s)) (fun s => k' (f' s)) := fun s fromD => by
  obtain ⟨moved, kept⟩ := hf s fromD
  simp only [moved]
  exact hk _ kept

/-- A branch on what no move of the times changes. -/
theorem Shifts.ite {c : State → Prop} [DecidablePred c] (same : ∀ s, c (moveTimes d s) ↔ c s)
    (hf : Shifts d f f') (hg : Shifts d g g') :
    Shifts d (fun s => if c s then f s else g s) (fun s => if c s then f' s else g' s) := fun s fromD => by
  simp only [same]
  split
  · exact hf s fromD
  · exact hg s fromD

/-- A move of the times touches no fault. -/
theorem Shifts.andThen (hf : Shifts d f f') (hk : Shifts d k k') :
    Shifts d (fun s => Machine.andThen (f s) k) (fun s => Machine.andThen (f' s) k') := by
  refine hf.followedBy (k := fun s => Machine.andThen s k) (k' := fun s => Machine.andThen s k') fun s fromD => ?_
  have sameFault : (moveTimes d s).fault = s.fault := rfl
  dsimp only
  rcases andThen_cases s k with ⟨hs, e⟩ | ⟨hs, e⟩
  · rw [e, andThen_ok (sameFault.trans hs)]
    exact hk s fromD
  · rw [e, andThen_fault (sameFault ▸ hs)]
    exact ⟨rfl, fromD⟩

end

/-! ### The units (R183) -/

section
variable {d : Nat}

theorem sweepUpdate_shifts (p : PulseIx) : Shifts d (sweepUpdate p) (sweepUpdate p) :=
  .of_timeless
    (fun s => by
      cases h : sweepTarget p (s.sweep.get p) (pulsePeriod (s.cache.get p.chan)) with
      | none => rw [sweepUpdate_none h, sweepUpdate_none (s := moveTimes d s) h]
      | some per => rw [sweepUpdate_some h, sweepUpdate_some (s := moveTimes d s) h]; rfl)
    (fun s => by simp [storedTimes])

theorem clockSweep_shifts (p : PulseIx) : Shifts d (clockSweep p) (clockSweep p) :=
  have updated := Shifts.ite (c := fun s => sweepDue (s.sweep.get p)) (fun _ => .rfl) (sweepUpdate_shifts p) shifts_id
  updated.followedBy (k := fun s => { s with sweep := s.sweep.set p (sweepClocked (s.sweep.get p)) }) .of_timeless

theorem clockHalfStep_shifts (entry : BitVec 2) : Shifts d (clockHalfStep entry) (clockHalfStep entry) :=
  have lengths := Shifts.of_timeless (d := d) (f := clockLengths)
  .ite (c := fun _ => entry.getLsbD 0 = false) (fun _ => .rfl)
    ((lengths.followedBy (clockSweep_shifts .pulse0)).followedBy (clockSweep_shifts .pulse1)) shifts_id

theorem frameFlag_shifts (entry : BitVec 2) : Shifts d (frameFlag entry) (frameFlag entry) :=
  .ite (c := fun s => s.seq.mode = .fourStep ∧ entry = 3 ∧ s.seq.irqInhibit = false) (fun _ => .rfl)
    .of_timeless shifts_id

theorem clockUnits_shifts : Shifts d clockUnits clockUnits := fun s =>
  have quarterStep := Shifts.of_timeless (d := d) (f := fun s => clockLinear (clockEnvelopes s))
  have flagged := (quarterStep.followedBy (clockHalfStep_shifts s.seq.step)).followedBy (frameFlag_shifts s.seq.step)
  flagged.followedBy (k := advanceStep s.seq.step) .of_timeless s

/-- The request of R183 compares registers of the units, none of them a time. -/
theorem unitsTicked_shifts : Shifts d unitsTicked unitsTicked := fun s fromD => by
  obtain ⟨moved, kept⟩ := clockUnits_shifts s fromD
  have entered : unitsTicked (moveTimes d s) = if recomputeRequested s (clockUnits s)
      then recomputeTri (moveTimes d (clockUnits s)) else moveTimes d (clockUnits s) := by
    rw [unitsTicked, moved]
    rfl
  rw [entered]
  exact Shifts.ite (c := fun _ => recomputeRequested s (clockUnits s)) (f := recomputeTri) (fun _ => .rfl)
    .of_timeless shifts_id _ kept

end

/-! ### The scheduled events at a time from `d` on (R103) -/

/-- The end of a bit's tick, after its `Emit` (R208, R211). -/
def bitShifted (T : Nat) (s : State) : State :=
  { s with dmc := { s.dmc with
      shifter := s.dmc.shifter >>> 1
      bitsRem := s.dmc.bitsRem - 1
      nextCommit := some (T + s.dmc.period) } }

theorem dmcPlayBit_eq (T : Nat) (s : State) : dmcPlayBit T s = bitShifted T (emit
    (bitDelta (s.dmc.shifter.getLsbD 0) s.dmc.level) T
    { s with dmc := { s.dmc with level := bitLevel (s.dmc.shifter.getLsbD 0) s.dmc.level } }) := rfl

section
variable {d T : Nat} (le : d ≤ T)
include le

/-- The sample index is the same, so the `Sync` takes the same of its three ways (R226). -/
theorem sync_shifts : Shifts d (sync T) (sync (T - d)) := fun s fromD => by
  refine ⟨?_, fromD.of_same (by simp [storedTimes])⟩
  simp only [sync, sampleIndex_moveTimes le, apply_ite (moveTimes d)]
  rfl

theorem tick_shifts : Shifts d (tick T) (tick (T - d)) := unitsTicked_shifts.followedBy (sync_shifts le)

theorem scheduleTick_shifts : Shifts d (scheduleTick T) (scheduleTick (T - d)) := fun s fromD => by
  refine ⟨?_, { fromD with tick := Nat.le_add_right_of_le le }⟩
  rw [scheduleTick, ← Nat.sub_add_comm le]
  rfl

theorem triExpire_shifts : Shifts d (triExpire T) (triExpire (T - d)) :=
  have recomputed : Shifts d triRecomputed triRecomputed := fun _ fromD => ⟨rfl, { fromD with tri := nofun }⟩
  recomputed.followedBy (sync_shifts le)

/-- The delta goes to the same sample index (R212). -/
theorem emit_shifts (x : Int) : Shifts d (emit x T) (emit x (T - d)) := fun s fromD => by
  refine ⟨?_, fromD.of_same rfl⟩
  simp only [emit, sampleIndex_moveTimes le]
  rfl

/-- A direct load of the level emits the difference at the write's own time (R202, R212). -/
theorem dmcDirect_shifts (v : Byte) : Shifts d (dmcDirect T v) (dmcDirect (T - d) v) := fun s =>
  have loaded := Shifts.of_timeless (d := d) (f := fun s =>
    { s with dmc := { s.dmc with level := v &&& s.cfg.dmcDirectMask } })
  loaded.followedBy (emit_shifts le _) s

/-- The next tick comes one period after the bit's (R211). -/
theorem bitShifted_shifts : Shifts d (bitShifted T) (bitShifted (T - d)) := fun s fromD => by
  refine ⟨?_, { fromD with dmc := ?_ }⟩
  · rw [bitShifted, ← Nat.sub_add_comm le]
    rfl
  · rintro _ ⟨⟩
    exact Nat.le_add_right_of_le le

theorem dmcPlayBit_shifts : Shifts d (dmcPlayBit T) (dmcPlayBit (T - d)) := fun s fromD => by
  rw [dmcPlayBit_eq, dmcPlayBit_eq]
  have leveled := Shifts.of_timeless (d := d) (f := fun s =>
    { s with dmc := { s.dmc with level := bitLevel (s.dmc.shifter.getLsbD 0) s.dmc.level } })
  exact (leveled.followedBy (emit_shifts le _)).followedBy (bitShifted_shifts le) s fromD

theorem dmcTick_shifts : Shifts d (dmcTick T) (dmcTick (T - d)) :=
  have bit := dmcPlayBit_shifts le
  have fetched := (Shifts.of_timeless (d := d) (f := dmcFetch)).followedBy bit
  have restarted := (Shifts.of_timeless (d := d) (f := dmcRestart)).followedBy fetched
  have completed : Shifts d dmcComplete dmcComplete := fun _ fromD => ⟨rfl, { fromD with dmc := nofun }⟩
  .ite (c := fun s => s.dmc.bitsRem ≠ 0) (fun _ => .rfl) bit
    (.ite (c := fun s => s.dmc.bytesRem ≠ 0) (fun _ => .rfl) fetched
      (.ite (c := fun s => s.dmc.loop) (fun _ => .rfl) restarted completed))

theorem runDue_shifts : ∀ who, Shifts d (runDue T who) (runDue (T - d) who)
  | .seqTick => (tick_shifts le).andThen (scheduleTick_shifts le)
  | .triExpiry => triExpire_shifts le
  | .dmcTick => dmcTick_shifts le

end

/-! ### The opening of a command (R100, R103) -/

/-- Moving down times that all lie from `d` on keeps their order, so R103's choice is the same event. -/
theorem earliest_map_sub {d : Nat} {l : List (Nat × Due)} (fromD : ∀ e ∈ l, d ≤ e.1) :
    earliest (l.map (Prod.map (· - d) id)) = (earliest l).map (Prod.map (· - d) id) := by
  induction l with
  | nil => rfl
  | cons x rest ih =>
    rw [List.forall_mem_cons] at fromD
    simp only [List.map_cons, earliest, ih fromD.2]
    cases h : earliest rest with
    | none => rfl
    | some y =>
      have := fromD.2 y (earliest_spec h).1
      simp only [Option.map_some, Prod.map_fst, Nat.sub_lt_sub_iff_right this]
      split <;> rfl

theorem schedule_moveTimes (d : Nat) (s : State) :
    schedule (moveTimes d s) = (schedule s).map (Prod.map (· - d) id) := by
  unfold schedule moveTimes
  cases s.tri.updateAt <;> cases s.dmc.nextCommit <;> rfl

theorem TimesFrom.schedule {d : Nat} {s : State} (h : TimesFrom d s) : ∀ e ∈ schedule s, d ≤ e.1 := by
  rintro ⟨T, who⟩ mem
  rw [mem_schedule] at mem
  cases who with
  | seqTick => cases mem; exact h.tick
  | triExpiry => exact h.tri T mem
  | dmcTick => exact h.dmc T mem

theorem nextDue_moveTimes {d ts : Nat} {s : State} (h : TimesFrom d s) (le : d ≤ ts) :
    nextDue (ts - d) (moveTimes d s) = (nextDue ts s).map (Prod.map (· - d) id) := by
  have due : (schedule s).filter ((fun e => decide (e.1 ≤ ts - d)) ∘ Prod.map (· - d) id) =
      (schedule s).filter fun e => decide (e.1 ≤ ts) :=
    List.filter_congr fun e _ => decide_eq_decide.mpr (Nat.sub_le_sub_iff_right le)
  rw [nextDue, schedule_moveTimes, List.filter_map, due, earliest_map_sub, nextDue]
  exact fun e mem => h.schedule e (List.mem_of_mem_filter mem)

theorem catchUpFuel_moveTimes {d ts : Nat} {s : State} (h : TimesFrom d s) (le : d ≤ ts) :
    catchUpFuel (ts - d) (moveTimes d s) = catchUpFuel ts s := by
  have left : ∀ t, d ≤ t → ts - d + 1 - (t - d) = ts + 1 - t := fun t _ => by omega
  have player : timeLeft (ts - d) (s.dmc.nextCommit.map (· - d)) = timeLeft ts s.dmc.nextCommit := by
    cases next : s.dmc.nextCommit with
    | none => rfl
    | some t => exact left t (h.dmc t next)
  have triangle : (s.tri.updateAt.map (· - d)).toList.length = s.tri.updateAt.toList.length := by
    cases s.tri.updateAt <;> rfl
  exact congrArg₂ (· + ·) (congrArg₂ (· + ·) (left _ h.tick) triangle) player

/-- Each turn of the loop runs the same event, at a time from `d` on (R103). -/
theorem catchUpLoop_shifts {d ts : Nat} (le : d ≤ ts) :
    ∀ fuel, Shifts d (catchUpLoop ts fuel) (catchUpLoop (ts - d) fuel)
  | 0 => shifts_id
  | fuel + 1 => fun s fromD => by
    rw [catchUpLoop, catchUpLoop, nextDue_moveTimes fromD le]
    cases next : nextDue ts s with
    | none => exact ⟨rfl, fromD⟩
    | some event =>
      obtain ⟨T, who⟩ := event
      obtain ⟨-, due, -⟩ := nextDue_some next
      have fromT : d ≤ T := fromD.schedule (T, who) (mem_schedule.mpr due)
      exact (runDue_shifts fromT who).andThen (catchUpLoop_shifts le fuel) s fromD

/-- A command in time opens alike before and after the move. -/
theorem arrive_moveTimes {d ts : Nat} {s : State} (fromD : TimesFrom d s) (noFault : s.fault = none)
    (inTime : s.lastTs ≤ ts) :
    arrive (ts - d) (moveTimes d s) = moveTimes d (arrive ts s) ∧ TimesFrom d (arrive ts s) := by
  have le : d ≤ ts := fromD.last.trans inTime
  have checked : TimesFrom d { s with lastTs := ts } := { fromD with last := le }
  rw [arrive_inTime noFault inTime, arrive_inTime (s := moveTimes d s) noFault (Nat.sub_le_sub_right inTime d), catchUp,
    catchUp, ← catchUpFuel_moveTimes checked le]
  exact catchUpLoop_shifts le _ _ checked

/-! ### The effects of the ports (R104) -/

theorem loadLength_shifts {d : Nat} (ch : Chan) (v : Byte) : Shifts d (loadLength ch v) (loadLength ch v) :=
  .ite (c := fun s => s.lenEnable.get ch) (fun _ => .rfl) .of_timeless shifts_id

theorem pulseHigh_shifts {d : Nat} (p : PulseIx) (v : Byte) : Shifts d (pulseHigh p v) (pulseHigh p v) :=
  have written := Shifts.of_timeless (d := d) (f := fun s =>
    { s with cache := s.cache.set p.chan (setField (s.cache.get p.chan) 12 (periodHigh v)) })
  (written.followedBy (loadLength_shifts p.chan v)).followedBy (k := armReload p.env) .of_timeless

theorem dmcActivate_eq (ts : Nat) (s : State) : dmcActivate ts s = { s with dmc := { (dmcRestart s).dmc with
    active := true, nextCommit := some (s.dmc.nextCommit.getD (ts + s.dmc.period)) } } := by
  rw [dmcActivate, dmcRestart]
  cases s.dmc.nextCommit <;> rfl

section
variable {d ts : Nat} (le : d ≤ ts)
include le

/-- The delay is armed from the write's own time (R143). -/
theorem armTriDelay_shifts : Shifts d (armTriDelay ts) (armTriDelay (ts - d)) := fun s fromD => by
  refine ⟨?_, { fromD with tri := ?_ }⟩
  · rw [armTriDelay, ← Nat.sub_add_comm le]
    rfl
  · rintro _ ⟨⟩
    exact Nat.le_add_right_of_le le

theorem triHigh_shifts (v : Byte) : Shifts d (triHigh ts v) (triHigh (ts - d) v) :=
  have period := Shifts.of_timeless (d := d) (f := fun s =>
    { s with tri := { s.tri with period := periodHigh v ++ s.tri.period.extractLsb' 0 8 } })
  ((period.followedBy (loadLength_shifts .tri v)).followedBy
    (k := fun s => { s with tri := { s.tri with linearReload := true } }) .of_timeless).followedBy (armTriDelay_shifts le)

/-- A tick already scheduled moves with the times; a new one comes one period after the write (R205). -/
theorem dmcActivate_shifts : Shifts d (dmcActivate ts) (dmcActivate (ts - d)) := fun s fromD => by
  rw [dmcActivate_eq, dmcActivate_eq]
  refine ⟨?moved, { fromD with dmc := ?next }⟩
  case moved =>
    have next : (moveTimes d s).dmc.nextCommit.getD (ts - d + (moveTimes d s).dmc.period) =
        s.dmc.nextCommit.getD (ts + s.dmc.period) - d :=
      (congrArg _ (Nat.sub_add_comm le).symm).trans (Option.getD_map ..)
    rw [next]
    rfl
  case next =>
    rintro _ ⟨⟩
    cases scheduled : s.dmc.nextCommit with
    | none => exact Nat.le_add_right_of_le le
    | some t => exact fromD.dmc t scheduled

theorem dmcEnableWrite_shifts (b : Bool) : Shifts d (dmcEnableWrite b ts) (dmcEnableWrite b (ts - d)) :=
  have disabled : Shifts d dmcDisable dmcDisable := fun _ fromD => ⟨rfl, { fromD with dmc := nofun }⟩
  .ite (c := fun _ => b) (fun _ => .rfl)
    (.ite (c := fun s => s.dmc.bytesRem = 0) (fun _ => .rfl) (dmcActivate_shifts le) shifts_id) disabled

theorem channelEnable_shifts (v : Byte) : Shifts d (channelEnable ts v) (channelEnable (ts - d) v) :=
  have channel (ch : Chan) : Shifts d (enableChannel ch v) (enableChannel ch v) := .of_timeless
  have delay : Shifts d (enableTriDelay ts v) (enableTriDelay (ts - d) v) :=
    .ite (c := fun _ => enableBit v .tri) (fun _ => .rfl) shifts_id (armTriDelay_shifts le)
  have upToTri := ((channel .pulse0).followedBy (channel .pulse1)).followedBy (channel .tri)
  ((upToTri.followedBy delay).followedBy (channel .noise)).followedBy (dmcEnableWrite_shifts le _)

theorem seqControl_shifts (v : Byte) : Shifts d (seqControl ts v) (seqControl (ts - d) v) :=
  have configured := Shifts.of_timeless (d := d) (f := seqConfigure v)
  have ticked := Shifts.ite (d := d) (c := fun _ => seqModeBit v) (fun _ => .rfl) (tick_shifts le) shifts_id
  have divider := Shifts.of_timeless (d := d) (f := fun s => { s with seq := { s.seq with half := false } })
  (configured.followedBy ticked).andThen (divider.followedBy (scheduleTick_shifts le))

end

/-- The effects that hold a time take it from their command; the others hold none. -/
theorem portEffect_shifts {d : Nat} (i : Instr) (le : d ≤ i.ts) :
    Shifts d (portEffect i) (portEffect (retime (i.ts - d) i)) := by
  cases i with
  | p0Hi ts v | p1Hi ts v => exact pulseHigh_shifts _ _
  | noiLen ts v => exact (loadLength_shifts .noise _).followedBy (k := armReload .noise) .of_timeless
  | triLo ts v =>
    have period := Shifts.of_timeless (d := d) (f := fun s =>
      { s with tri := { s.tri with period := s.tri.period.extractLsb' 8 3 ++ dataByte v } })
    exact period.followedBy (armTriDelay_shifts le)
  | triHi ts v => exact triHigh_shifts le _
  | dmcLevel ts v => exact dmcDirect_shifts le _
  | chEnable ts v => exact channelEnable_shifts le _
  | seqCtrl ts v => exact seqControl_shifts le _
  | _ => exact .of_timeless

/-! ### One command -/

theorem retime_ts (t : Nat) (i : Instr) : (retime t i).ts = t := by cases i <;> rfl

theorem retime_value (t : Nat) (i : Instr) : (retime t i).value = i.value := by cases i <;> rfl

/-- An earlier timestamp keeps a command in range (R101). -/
theorem retime_wf {t : Nat} {i : Instr} (wf : i.wf = true) (le : t ≤ i.ts) : (retime t i).wf = true := by
  rw [Instr.wf_iff] at wf ⊢
  obtain ⟨inRange, value⟩ := wf
  exact ⟨by rw [retime_ts]; exact le.trans_lt inRange, by rwa [retime_value]⟩

/-- After the opening every piece of a command but `EOF`'s wait is carried over by the move. -/
theorem commandBody_moveTimes {d : Nat} {i : Instr} {s : State} (ready : Ready i s) (fromD : TimesFrom d s)
    (notEof : i ≠ .eof i.ts) :
    commandBody (retime (i.ts - d) i) (moveTimes d s) = moveTimes d (commandBody i s) ∧
      TimesFrom d (commandBody i s) := by
  have le : d ≤ i.ts := fromD.last.trans ready.inTime
  obtain ⟨opens, opened⟩ := arrive_moveTimes fromD ready.noFault ready.inTime
  have synced : Shifts d (sync i.ts) (sync (i.ts - d)) := sync_shifts le
  have after {f f' : State → State} (rest : Shifts d f f') :
      f' (arrive (i.ts - d) (moveTimes d s)) = moveTimes d (f (arrive i.ts s)) ∧ TimesFrom d (f (arrive i.ts s)) :=
    opens ▸ rest _ opened
  have write (bits : Byte) := after (((shifts_id.andThen (portEffect_shifts i le)).andThen synced).andThen
    (.of_timeless (f := stageCtrl bits)))
  cases i with
  | rdStatus ts => exact after (shifts_id.andThen (.of_timeless (f := statusRead)))
  | force ts => exact after (shifts_id.andThen synced)
  | eof ts => exact absurd rfl notEof
  | _ => exact write _

/-- Settles O51: the retimed command is in range too, and its opening, effect, `Sync` and staging are each carried over
by the move of the times. -/
theorem rebaseIsTransparentToEveryCommand : Obligations.RebaseIsTransparentToEveryCommand := by
  intro i d s t ready fromD notEof run
  obtain ⟨wf, rfl⟩ := exec_next run
  obtain ⟨moved, kept⟩ := commandBody_moveTimes ready fromD notEof
  exact ⟨(exec_of_wf (retime_wf wf (Nat.sub_le _ _)) _).trans (congrArg _ moved), kept⟩

end Sys2Proof.Machine
end
